-- ==== Sys2Proof/Word.lean ====
section
/-! DEFINITION. The word types of the voixen-vad stream block (00_scope.md R7, R8). -/

namespace Sys2Proof

/-- A `u32` or `i32` register value, as its 32-bit pattern (R8). -/
abbrev Word := BitVec 32

/-- One byte of host memory (R49). -/
abbrev Byte := BitVec 8

/-- One `i16` sample, as its 16-bit two's-complement pattern (R8, R37). -/
abbrev Sample := BitVec 16

/-- The first number past the 32-bit host address space, 2^32 (R47). -/
abbrev addressTop : Nat := 4294967296

end Sys2Proof
end

