-- ==== Sys2Proof/Config.lean ====
section
/-! DEFINITION. What is fixed for one block and its platform: the constants of 00_scope.md R6, the forms of the
requests and answers on the block's ports, and the open parameters of R6, each a constant without a body. -/

namespace Sys2Proof

/-- The agents of the step model (60_exceptions.md R141). -/
inductive Agent where
  | host
  | vadUnit
  | mp3Unit
  | innerVad
  | innerDecoder
  | hostMemory
deriving DecidableEq, Repr, Inhabited

/-- The output format passed to the inner decoder (40_mp3_bootstrap.md R80). -/
inductive Fmt where
  | s16
  | f32
deriving DecidableEq, Repr, Inhabited

/-- A request `IVAD.eval(mode, rate, flen, samples)` (43_vad_session.md R119). -/
structure IvadReq where
  mode : BitVec 2
  rate : Word
  flen : Word
  samples : List Sample
deriving DecidableEq, Repr, Inhabited

/-- One event of the inner-VAD port's history (R119, R120). -/
inductive IvadEvent where
  | reset
  | request (r : IvadReq)
  | answer (code : BitVec 2)
deriving DecidableEq, Repr, Inhabited

/-- A request `IDEC.call(fmt, in_ptr, in_len, left, right)` (40_mp3_bootstrap.md R80). -/
structure IdecReq where
  fmt : Fmt
  inPtr : Word
  inLen : Word
  left : Word
  right : Word
deriving DecidableEq, Repr, Inhabited

/-- Bytes an agent writes into the two output regions: pairs of an offset into the region and a byte
(R48, R61, R81). -/
structure OutputWrites where
  left : List (Nat × Byte)
  right : List (Nat × Byte)
deriving DecidableEq, Repr, Inhabited

/-- What the inner decoder answers: `(n, hp)` (R80), with the writes it performs before it answers (R61). -/
structure IdecAnswer where
  n : Word
  hp : Bool
  writes : OutputWrites
deriving DecidableEq, Repr, Inhabited

/-- One event of the inner-decoder port's history (R80, R81). -/
inductive IdecEvent where
  | reset
  | request (r : IdecReq)
  | answer (n : Word) (hp : Bool)
deriving DecidableEq, Repr, Inhabited

namespace Config

/-- `RB_CAP`: the ring buffer's capacity in samples (R6, 10_state.md R37). -/
abbrev rbCap : Nat := 1440

/-- `FRAME_MS`: the duration of a VAD frame (R6, 90_conflicts.md C1). -/
abbrev frameMs : Nat := 30

/-- `RATES`: the supported sample rates in Hz (R6, 43_vad_session.md R114). -/
abbrev rates : List Word := [8000, 16000, 32000, 48000]

/-- Samples per channel of an MP3 output frame (R6, 40_mp3_bootstrap.md R79). -/
abbrev mp3FrameSamples : Nat := 1152

/-- `INPUT_BUFFER_SIZE`: a constant that the spec exposes and no rule enforces as a limit (R6). -/
abbrev inputBufferBytes : Nat := 4096

/-- The size of the register window in bytes (10_state.md R11). -/
abbrev windowBytes : Nat := 8192

/-- OPEN `P_BASE` (R6, 92 D2), as the number of its 8 KiB block: a base without a value, 8 KiB aligned
(20_memory.md R56). DEDUCED, log 21. -/
opaque pBaseBlock : BitVec 19

/-- `P_BASE`, the host byte address of the register window (10_state.md R11, 20_memory.md R56). -/
def pBase : Word := pBaseBlock ++ (0 : BitVec 13)

/-- OPEN `P_COHERENT` (R6, 92 D36): whether the memory port sees host writes without cache maintenance. -/
opaque pCoherent : Bool

/-- OPEN `P_MEMREAD` (R6, 92 D42): what a read of an address that no memory backs returns; `none` is "stuck",
the read never answers (20_memory.md R50, 93 U8). -/
opaque pMemRead : Word → Option Word

/-- OPEN `IVAD` (R6, 92 D30): the inner VAD's verdict code for a request, given the port's history, newest event
first (43_vad_session.md R120). -/
opaque ivad : List IvadEvent → IvadReq → BitVec 2

/-- OPEN `IDEC` (R6, 92 D31): the inner decoder's answer and writes for a request, given the port's history,
newest event first (40_mp3_bootstrap.md R81). -/
opaque idec : List IdecEvent → IdecReq → IdecAnswer

/-- FREE VALUE: the turns that any agents take at a tick, where the schedule in State names none, before the next turn
that weak fairness gives (60_exceptions.md R142): the rules fix neither their order nor their number. Logs 1, 23. -/
opaque schedule : Nat → List Agent

/-- FREE VALUE: a fresh word for each count of `draws`, for every value the rules do not fix (10_state.md R36,
20_memory.md R54, 93 U3, U4, U7). Logs 12, 14, 20. -/
opaque draw : Nat → Word

/-- FREE VALUE: the contents of an RB element that nothing has written since the reset numbered by the first
argument (10_state.md R37, 93 U5). Log 7. -/
opaque rbContents : Nat → Nat → Sample

/-- FREE VALUE: the bytes found in the output regions after a hardware reset in the middle of an MP3_DECODE_*
(70_reset_and_hazards.md R147, 93 U13). Log 15. -/
opaque abandonedWrites : Nat → OutputWrites

end Config

/-- `FLEN(rate) = (rate / 1000) * 30` (43_vad_session.md R114). -/
def flenOf (rate : Word) : Word := rate / 1000 * BitVec.ofNat 32 Config.frameMs

end Sys2Proof
end

