-- ==== Sys2Proof/Syntax.lean ====
section
/-! DEFINITION. The six commands (30_encoding.md R70), the register names (10_state.md R11), the rejection causes
(60_exceptions.md R126), the host's bus transactions and its command scripts (30_encoding.md R77, R78). -/

namespace Sys2Proof

/-- The two units of the block (00_scope.md R1); each has a command register and an opcode space of its own
(30_encoding.md R69). -/
inductive UnitId where
  | vad
  | mp3
deriving DecidableEq, Repr, Inhabited

/-- The commands of opcode_table.json (R70). No command has an operand field: operands are argument registers
(R74). -/
inductive Instr where
  | vadInit
  | vadSetmode
  | vadProcess
  | mp3DecodeS16
  | mp3DecodeF32
  | mp3Reset
deriving DecidableEq, Repr, Inhabited

/-- The unit on whose command register a command is issued (R70). -/
def Instr.unit : Instr → UnitId
  | .vadInit => .vad
  | .vadSetmode => .vad
  | .vadProcess => .vad
  | .mp3DecodeS16 => .mp3
  | .mp3DecodeF32 => .mp3
  | .mp3Reset => .mp3

/-- The cause codes of a rejection (60_exceptions.md R126). Codes 6 to 15 are never produced, so they have no
constructor. -/
inductive Cause where
  | none
  | unknownOpcode
  | reservedBits
  | misaligned
  | rangeWrap
  | bufferOverlap
deriving DecidableEq, Repr, Inhabited

/-- The registers of the window (10_state.md R11); `rbWin k` is word `k` of RB_WIN (R36). -/
inductive Reg where
  | vadCmd | vadStatus | vadArg0 | vadArg1 | vadArg2
  | vadResult | vadRate | vadFlen | vadOff | vadMode
  | vadHistErr | vadHistSil | vadHistVoi | vadHistNoi
  | mp3Cmd | mp3Status | mp3Arg0 | mp3Arg1 | mp3Arg2 | mp3Arg3
  | mp3N | mp3Samples | mp3Trace
  | irqEnable | irqStatus
  | rbWin (k : Nat)
deriving DecidableEq, Repr, Inhabited

/-- The width of a bus access, in bytes: 32 bits and any other width, narrower or wider (10_state.md R12). -/
structure Width where
  bytes : Nat
deriving DecidableEq, Repr, Inhabited

/-- An 8-bit access. -/
def Width.w8 : Width := { bytes := 1 }

/-- A 16-bit access. -/
def Width.w16 : Width := { bytes := 2 }

/-- A 32-bit access, the one width that the window defines (10_state.md R12). -/
def Width.w32 : Width := { bytes := 4 }

/-- A 64-bit access. -/
def Width.w64 : Width := { bytes := 8 }

/-- What the outside world does to the block in one step (60_exceptions.md R141, R143): a transaction at an offset
of the register window (R77), an access at a host byte address (R11), one of the host's own memory writes (R141),
cache cleaning of a range (20_memory.md R59), or the reset input (70_reset_and_hazards.md R144). The value of a
`write` counts only where its width is 32 bits (10_state.md R12); a `busWrite` carries its bytes, the lowest address
first, as many as the access is wide. -/
inductive HostOp where
  | write (offset : BitVec 13) (width : Width) (value : Word)
  | read (offset : BitVec 13) (width : Width)
  | poll (offset : BitVec 13) (mask val : Word)
  | pollAny (offset : BitVec 13) (mask : Word)
  | busWrite (addr : Word) (bytes : List Byte)
  | busRead (addr : Word) (width : Width)
  | store (addr : Word) (byte : Byte)
  | clean (addr len : Word)
  | assertRst
deriving DecidableEq, Repr, Inhabited

/-- One line of a command script (30_encoding.md R77). -/
inductive ScriptLine where
  | w (reg : Reg) (imm : Word)
  | r (reg : Reg)
  | poll (reg : Reg) (mask val : Word)
  | pollAny (reg : Reg) (mask : Word)
deriving DecidableEq, Repr, Inhabited

/-- The pseudo-instructions of a command script (30_encoding.md R78). -/
inductive Pseudo where
  | vadInit
  | vadSetmode (m : Word)
  | vadProcess (rate addr blen : Word)
  | mp3Dec16 (inp len l r : Word)
  | mp3Decf32 (inp len l r : Word)
  | mp3Reset
deriving DecidableEq, Repr, Inhabited

end Sys2Proof
end

