-- ==== Sys2Proof/WellFormed.lean ====
section
/-! DEFINITION. Which terms of the syntax the spec gives an encoding. -/

namespace Sys2Proof

/-- A command has no operand field (30_encoding.md R68, R74), so every term of `Instr` has an encoding. What a
command's operands must satisfy is checked by the block at acceptance (`Machine/Operands.lean`), not here. -/
def Instr.wellFormed : Instr → Bool
  | .vadInit => true
  | .vadSetmode => true
  | .vadProcess => true
  | .mp3DecodeS16 => true
  | .mp3DecodeF32 => true
  | .mp3Reset => true

/-- Every register name is one of 10_state.md R11; RB_WIN has the words 0 to 719 (R36). -/
def Reg.wellFormed : Reg → Bool
  | .rbWin k => decide (k < 720)
  | _ => true

/-- A script line names a register of R11 (30_encoding.md R77). -/
def ScriptLine.wellFormed : ScriptLine → Bool
  | .w reg _ => reg.wellFormed
  | .r reg => reg.wellFormed
  | .poll reg _ _ => reg.wellFormed
  | .pollAny reg _ => reg.wellFormed

/-- Only aligned 32-bit accesses to the window are defined to have an effect (10_state.md R12). -/
def HostOp.definedAccess : HostOp → Bool
  | .write offset width _ => decide (width = .w32) && decide (offset.toNat % 4 = 0)
  | .read offset width => decide (width = .w32) && decide (offset.toNat % 4 = 0)
  | .poll offset _ _ => decide (offset.toNat % 4 = 0)
  | .pollAny offset _ => decide (offset.toNat % 4 = 0)
  | _ => true

end Sys2Proof
end

