-- ==== Sys2Proof/Decode.lean ====
section
/-! DEFINITION. Decoding a command word (30_encoding.md R68 to R76), the register map (10_state.md R11), and the
encoders: of commands (R70), of script lines and of pseudo-instructions (R77, R78). -/

namespace Sys2Proof

/-- The opcode field `OP`, bits [7:0] of a command word (R68). -/
def opField (w : Word) : BitVec 8 := w.extractLsb' 0 8

/-- The reserved field `RSV`, bits [31:8] of a command word (R68). -/
def rsvField (w : Word) : BitVec 24 := w.extractLsb' 8 24

/-- The command an opcode selects on a unit's command register (R69, R70). -/
def commandOf : UnitId → BitVec 8 → Option Instr
  | .vad, op =>
    if op = 1 then some .vadInit
    else if op = 2 then some .vadSetmode
    else if op = 3 then some .vadProcess
    else none
  | .mp3, op =>
    if op = 1 then some .mp3DecodeS16
    else if op = 2 then some .mp3DecodeF32
    else if op = 3 then some .mp3Reset
    else none

/-- Decoding a word written to a unit's command register: total, and refused with the cause code of R75, an
unknown opcode before reserved bits (R72, 60_exceptions.md R129). -/
def decodeCommand (u : UnitId) (w : Word) : Except Cause Instr :=
  match commandOf u (opField w) with
  | none => .error .unknownOpcode
  | some i => if rsvField w = 0 then .ok i else .error .reservedBits

/-- The named registers of R11 with their offsets. -/
def regTable : List (Nat × Reg) :=
  [ (0x000, .vadCmd), (0x004, .vadStatus), (0x008, .vadArg0), (0x00C, .vadArg1), (0x010, .vadArg2),
    (0x014, .vadResult), (0x018, .vadRate), (0x01C, .vadFlen), (0x020, .vadOff), (0x024, .vadMode),
    (0x028, .vadHistErr), (0x02C, .vadHistSil), (0x030, .vadHistVoi), (0x034, .vadHistNoi),
    (0x040, .mp3Cmd), (0x044, .mp3Status), (0x048, .mp3Arg0), (0x04C, .mp3Arg1), (0x050, .mp3Arg2),
    (0x054, .mp3Arg3), (0x058, .mp3N), (0x05C, .mp3Samples), (0x060, .mp3Trace),
    (0x078, .irqEnable), (0x07C, .irqStatus) ]

/-- The register at an offset of the window, none where R11 lists no register (R13). RB_WIN's words stand at
`0x800 + 4k` (R36). -/
def regAt (offset : Nat) : Option Reg :=
  if 0x800 ≤ offset ∧ offset < 0x1340 then
    if offset % 4 = 0 then some (.rbWin ((offset - 0x800) / 4)) else none
  else regTable.lookup offset

/-- Where a host byte address stands in the register window: its offset from `P_BASE`, none outside the window's
8 KiB (R11, 20_memory.md R56). -/
def windowOffset (addr : Word) : Option (BitVec 13) :=
  if Config.pBase.toNat ≤ addr.toNat ∧ addr.toNat < Config.pBase.toNat + Config.windowBytes then
    some (BitVec.ofNat 13 (addr.toNat - Config.pBase.toNat))
  else none

/-- The command an issue transaction carries: an aligned 32-bit write of `w` at an offset (R71, R77), none where the
offset is no command register's or the word is illegal. -/
def decodeIssue (offset : Nat) (w : Word) : Option Instr :=
  match regAt offset with
  | some .vadCmd => (decodeCommand .vad w).toOption
  | some .mp3Cmd => (decodeCommand .mp3 w).toOption
  | _ => none

/-- The bits of an issue transaction: the command word in bits [31:0] and the offset of the command register it is
written to in bits [63:32] (R68, R77). Log 5. -/
def issueBits (nbits w : Nat) : Nat := w % 2 ^ (min nbits 64)

/-- The command the decoder reads from `nbits` bits `w`, every bit above `nbits` 0. A bare 32-bit word of
opcode_table.json leaves the offset 0, which is VAD_CMD: the table's MP3 rows have the same 32 bits as its VAD
rows (R69) and are told apart by the offset, as 64 bits. Log 5. -/
def decodeTableWord (nbits w : Nat) : Option Instr :=
  decodeIssue (issueBits nbits w / 2 ^ 32) (BitVec.ofNat 32 (issueBits nbits w))

/-- The offset of a register (R11, R36). -/
def Reg.offset : Reg → Nat
  | .vadCmd => 0x000 | .vadStatus => 0x004 | .vadArg0 => 0x008 | .vadArg1 => 0x00C | .vadArg2 => 0x010
  | .vadResult => 0x014 | .vadRate => 0x018 | .vadFlen => 0x01C | .vadOff => 0x020 | .vadMode => 0x024
  | .vadHistErr => 0x028 | .vadHistSil => 0x02C | .vadHistVoi => 0x030 | .vadHistNoi => 0x034
  | .mp3Cmd => 0x040 | .mp3Status => 0x044 | .mp3Arg0 => 0x048 | .mp3Arg1 => 0x04C | .mp3Arg2 => 0x050
  | .mp3Arg3 => 0x054 | .mp3N => 0x058 | .mp3Samples => 0x05C | .mp3Trace => 0x060
  | .irqEnable => 0x078 | .irqStatus => 0x07C
  | .rbWin k => 0x800 + 4 * k

/-- The command register of a unit (R70). -/
def UnitId.cmdReg : UnitId → Reg
  | .vad => .vadCmd
  | .mp3 => .mp3Cmd

/-- The opcode of a command (R70). -/
def Instr.opcode : Instr → BitVec 8
  | .vadInit => 0x01
  | .vadSetmode => 0x02
  | .vadProcess => 0x03
  | .mp3DecodeS16 => 0x01
  | .mp3DecodeF32 => 0x02
  | .mp3Reset => 0x03

/-- The word of a command: RSV zero, OP its opcode (R68, R70). -/
def encode (i : Instr) : Word := (0 : BitVec 24) ++ i.opcode

/-- The 64 bits of the issue transaction of a command: its word, with its command register's offset above it. -/
def encodeIssue (i : Instr) : Nat := i.unit.cmdReg.offset * 2 ^ 32 + (encode i).toNat

/-- The bus transaction of a script line (R77). -/
def ScriptLine.encode : ScriptLine → HostOp
  | .w reg imm => .write (BitVec.ofNat 13 reg.offset) .w32 imm
  | .r reg => .read (BitVec.ofNat 13 reg.offset) .w32
  | .poll reg mask val => .poll (BitVec.ofNat 13 reg.offset) mask val
  | .pollAny reg mask => .pollAny (BitVec.ofNat 13 reg.offset) mask

/-- The script line that issues a command (R77, R78). -/
def issueLine (i : Instr) : ScriptLine := .w i.unit.cmdReg (encode i)

/-- The expansion of a pseudo-instruction (R78); mask 6 selects DONE and CMD_ERR. -/
def Pseudo.expand : Pseudo → List ScriptLine
  | .vadInit => [issueLine .vadInit, .pollAny .vadStatus 6]
  | .vadSetmode m => [.w .vadArg0 m, issueLine .vadSetmode, .pollAny .vadStatus 6]
  | .vadProcess rate addr blen =>
    [.w .vadArg0 rate, .w .vadArg1 addr, .w .vadArg2 blen, issueLine .vadProcess, .pollAny .vadStatus 6]
  | .mp3Dec16 inp len l r =>
    [.w .mp3Arg0 inp, .w .mp3Arg1 len, .w .mp3Arg2 l, .w .mp3Arg3 r, issueLine .mp3DecodeS16,
      .pollAny .mp3Status 6]
  | .mp3Decf32 inp len l r =>
    [.w .mp3Arg0 inp, .w .mp3Arg1 len, .w .mp3Arg2 l, .w .mp3Arg3 r, issueLine .mp3DecodeF32,
      .pollAny .mp3Status 6]
  | .mp3Reset => [issueLine .mp3Reset, .pollAny .mp3Status 6]

/-- The transactions of a pseudo-instruction (R78). -/
def Pseudo.encode (p : Pseudo) : List HostOp := p.expand.map ScriptLine.encode

end Sys2Proof
end

