-- ==== Sys2Proof/Machine/State.lean ====
section
/-! DEFINITION. The state of the block (10_state.md), the reasons a step can stop, and the state after reset
(70_reset_and_hazards.md R145, 10_state.md R45). -/

namespace Sys2Proof.Machine

/-- Values by index: pairs of an index and a value, indices strictly rising. An index that is not listed has no
value that the rules fix. -/
abbrev Cells (n : Nat) := List (Nat × BitVec n)

/-- Host memory (20_memory.md R46): the bytes that are known to stand at 32-bit addresses. An address that is not
listed has no byte: what a read of it returns is P_MEMREAD's (R50; log 10). -/
abbrev Memory := List Host.Cell

/-- The canonical form of `Cells`: indices strictly rising. -/
abbrev CellsWf {n : Nat} (c : Cells n) : Prop := (c.map Prod.fst).Pairwise (· < ·)

/-- The canonical form of host memory: strictly rising addresses, each below 2^32 (R47). -/
abbrev Memory.wf (m : Memory) : Prop := CellsWf (n := 8) m ∧ ∀ c ∈ m, c.1 < addressTop

/-- A port that carries one request at a time (40_mp3_bootstrap.md R80, 43_vad_session.md R119, 20_memory.md R50):
nothing, a request that waits for its answer, or an answer that the unit has not taken yet (log 3). -/
inductive Port (ρ α : Type) where
  | idle
  | pending (request : ρ)
  | answered (answer : α)
deriving DecidableEq, Repr

/-- The histogram registers VAD_HIST_* (10_state.md R26). -/
structure HistRegs where
  err : Word
  sil : Word
  voi : Word
  noi : Word
deriving DecidableEq, Repr

/-- The working histogram `H' = (e, s, v, n)`, four `Int` counters that are never negative (10_state.md R39,
42_vad_decision.md R108). -/
structure Counts where
  e : Nat
  s : Nat
  v : Nat
  n : Nat
deriving DecidableEq, Repr

/-- The working state of the frame iterator (10_state.md R39, 41_vad_frame_assembler.md R99): `RATE'`, `FLEN'`,
the offset `off` (`OFF'` at the end), `rem`, `p` and `H'`. -/
structure ProcWork where
  rate : Word
  flen : Word
  off : Nat
  rem : Nat
  p : Nat
  hist : Counts
deriving DecidableEq, Repr

/-- The sequencer position inside a VAD_PROCESS (10_state.md R43): before the rate check; at the head of the
iterator loop, after a verdict; waiting for a MemRead; waiting for a verdict. -/
inductive ProcPos where
  | start
  | loop (w : ProcWork)
  | memWait (w : ProcWork)
  | ivadWait (w : ProcWork)
deriving DecidableEq, Repr

/-- The running VAD command `op_a` (10_state.md R38) with its sequencer position (R43). For VAD_INIT, `pulsed` says
that `IVAD.reset()` is done. -/
inductive VadSeq where
  | init (pulsed : Bool)
  | setmode
  | process (pos : ProcPos)
deriving DecidableEq, Repr

/-- The latched arguments of a running VAD command and its sequencer (10_state.md R38, R43). -/
structure VadRun where
  rateA : Word
  addrA : Word
  blenA : Word
  seq : VadSeq
deriving DecidableEq, Repr

/-- The VAD unit (10_state.md sections 2 and 5). BUSY is 1 exactly while `run` holds a command (R16; log 18).
`rb` lists the elements of RB written since the reset numbered `rbEpoch` (R37; log 7). `memLog` is the model's own
record of the MemReads of the running command, address and word, newest first (log 27). -/
structure VadUnit where
  done : Bool
  cmdErr : Bool
  overrun : Bool
  errCause : Cause
  rateReject : Bool
  arg0 : Word
  arg1 : Word
  arg2 : Word
  result : Word
  rate : Word
  flen : Word
  off : Word
  mode : BitVec 2
  hist : HistRegs
  rb : Cells 16
  rbEpoch : Nat
  run : Option VadRun
  memPort : Port Word Word
  memLog : List (Word × Word)
  ivadPort : Port IvadReq (BitVec 2)
  ivadLog : List IvadEvent
deriving DecidableEq, Repr

/-- The bootstrap state BST (40_mp3_bootstrap.md R82). -/
inductive Bst where
  | init
  | head
  | frame
  | done
deriving DecidableEq, Repr

/-- The working state of the bootstrap (10_state.md R40): BST, `ncalls` and `hp[1..3]`. The last answer `n` stands
in the position that reads it, `DecPos.finish`. -/
structure Boot where
  bst : Bst
  ncalls : Nat
  hp1 : Bool
  hp2 : Bool
  hp3 : Bool
deriving DecidableEq, Repr

/-- The sequencer position inside an MP3_DECODE_* (10_state.md R43): about to make the next call, waiting for its
answer, or at `finish` with the terminal `n` (40_mp3_bootstrap.md R85 to R87). -/
inductive DecPos where
  | call (b : Boot)
  | wait (b : Boot)
  | finish (b : Boot) (n : Word)
deriving DecidableEq, Repr

/-- The running MP3 command `op_a` (10_state.md R38) with its sequencer position. For MP3_RESET, `pulsed` says that
`IDEC.reset()` is done. -/
inductive Mp3Seq where
  | decode (fmt : Fmt) (pos : DecPos)
  | reset (pulsed : Bool)
deriving DecidableEq, Repr

/-- The latched arguments of a running MP3 command and its sequencer (10_state.md R38, R43). -/
structure Mp3Run where
  inA : Word
  lenA : Word
  leftA : Word
  rightA : Word
  seq : Mp3Seq
deriving DecidableEq, Repr

/-- The fields of MP3_TRACE (10_state.md R33). -/
structure Trace where
  ncalls : BitVec 2
  skip : Bool
  hp1 : Bool
  hp2 : Bool
  hp3 : Bool
  endState : Bst
deriving DecidableEq, Repr

/-- The MP3 unit (10_state.md sections 3 and 5). BUSY is 1 exactly while `run` holds a command (R28; log 18). -/
structure Mp3Unit where
  done : Bool
  cmdErr : Bool
  overrun : Bool
  errCause : Cause
  error : Bool
  needMore : Bool
  arg0 : Word
  arg1 : Word
  arg2 : Word
  arg3 : Word
  n : Word
  samples : Word
  trace : Trace
  run : Option Mp3Run
  idecPort : Port IdecReq (Word × Bool)
  idecLog : List IdecEvent
deriving DecidableEq, Repr

/-- The MODEL's own fields: whose step this is and who moves next (log 1), what the outside world is about to do
(logs 4, 17), what the host's reads returned, newest first, and the counter of the free words (log 20). -/
structure Env where
  turn : Agent
  sched : List Agent
  tick : Nat
  hostOps : List HostOp
  results : List Word
  ivadAnswers : List (BitVec 2)
  idecAnswers : List IdecAnswer
  draws : Nat
deriving DecidableEq, Repr

/-- The state of the block, of the host memory it reads, and of the model's view of the outside world. `race` holds
the bits of host memory changed while the VAD unit is BUSY (20_memory.md R54; log 12), `stale` the bits that the
host has written and not yet cleaned (R59; log 13). -/
structure State where
  vad : VadUnit
  mp3 : Mp3Unit
  irqEnable : BitVec 2
  mem : Memory
  race : Cells 8
  stale : Cells 8
  env : Env
deriving DecidableEq, Repr

/-- The working copies of the session registers (10_state.md R39). -/
structure Session where
  rate : Word
  flen : Word
  off : Word
deriving DecidableEq, Repr

/-- The working copies that a VAD command's `complete` writes (60_exceptions.md R132). A copy that the command's
rule does not list is none, and its register is not written. -/
structure VadCommit where
  session : Option Session
  mode : Option (BitVec 2)
  hist : Option HistRegs
  result : Word
  rateReject : Bool
deriving DecidableEq, Repr

/-- The working copies that an MP3 command's `complete` writes (40_mp3_bootstrap.md R87, R94). -/
structure Mp3Commit where
  n : Word
  samples : Word
  error : Bool
  needMore : Bool
  trace : Trace
deriving DecidableEq, Repr

/-- Why a step of the model faults. The block itself has no fatal condition (60_exceptions.md R131): both reasons
stand outside the domain of a rule and outside every state a run reaches (log 19). -/
inductive Fault where
  /-- Raised by the frame iterator about to read outside R50's domain: an address that is no multiple of 4, or whose
  word passes 2^32. Safe: the block never issues such an access (20_memory.md R47, R51). -/
  | memReadOutsideRule (addr : Nat)
  /-- Raised by the frame iterator about to write RB at an index of 1440 or more. Safe: every index is inside RB
  (41_vad_frame_assembler.md R101). -/
  | ringIndexOutside (index : Nat)
deriving DecidableEq, Repr

/-- Why a step of the model is refused. -/
inductive Refusal where
  /-- Raised by an arm of `exec` for a command without a meaning yet. No arm raises it. Safe. -/
  | notModelled (mnemonic : String)
deriving DecidableEq, Repr

/-- What a step answers. -/
abbrev Result := Host.Outcome State Fault Refusal

/-- The reset values of the VAD unit (10_state.md R45), with `epoch` numbering the reset and `log` the history of
the IVAD port that the reset pulse of 70_reset_and_hazards.md R145 is added to. -/
def VadUnit.reset (epoch : Nat) (log : List IvadEvent) : VadUnit :=
  { done := false, cmdErr := false, overrun := false, errCause := .none, rateReject := false,
    arg0 := 0, arg1 := 0, arg2 := 0, result := 0, rate := 0, flen := 0, off := 0, mode := 0,
    hist := { err := 0, sil := 0, voi := 0, noi := 0 },
    rb := [], rbEpoch := epoch, run := none, memPort := .idle, memLog := [], ivadPort := .idle,
    ivadLog := .reset :: log }

/-- MP3_TRACE with all fields 0 (10_state.md R33). -/
def traceZero : Trace :=
  { ncalls := 0, skip := false, hp1 := false, hp2 := false, hp3 := false, endState := .init }

/-- The reset values of the MP3 unit (10_state.md R45), with the reset pulse of R145 added to the history of the
IDEC port. -/
def Mp3Unit.reset (log : List IdecEvent) : Mp3Unit :=
  { done := false, cmdErr := false, overrun := false, errCause := .none, error := false, needMore := false,
    arg0 := 0, arg1 := 0, arg2 := 0, arg3 := 0, n := 0, samples := 0,
    trace := traceZero, run := none, idecPort := .idle, idecLog := .reset :: log }

/-- The outside world before anything is placed in it (DESIGN CHOICE, log 8). -/
def Env.initial : Env :=
  { turn := .host, sched := [], tick := 0, hostOps := [], results := [], ivadAnswers := [], idecAnswers := [],
    draws := 0 }

/-- The machine right after reset (70_reset_and_hazards.md R145, R146; 10_state.md R45). DESIGN CHOICE, unsafe (logs 8,
10): the spec gives host memory no contents at reset or power-on; here `mem` lists no byte, so every read is
P_MEMREAD's until something stores. -/
def State.reset : State :=
  { vad := VadUnit.reset 0 [], mp3 := Mp3Unit.reset [], irqEnable := 0, mem := [], race := [], stale := [],
    env := Env.initial }

end Sys2Proof.Machine
end

