-- ==== Sys2Proof/Machine/Operands.lean ====
section
/-! DEFINITION. The operands of the commands and the argument checks at acceptance (30_encoding.md R72 to R74). -/

namespace Sys2Proof.Machine

/-- The sample count of a VAD_PROCESS: its byte length divided by 4, floor (10_state.md R20). -/
def sampleCount (blen : Word) : Nat := blen.toNat / 4

/-- `check_args` of VAD_PROCESS (20_memory.md R51, R52; order of 60_exceptions.md R129). -/
def checkProcessArgs (addr blen : Word) : Option Cause :=
  if sampleCount blen = 0 then none
  else if addr.toNat % 4 ≠ 0 then some .misaligned
  else if addressTop < addr.toNat + 4 * sampleCount blen then some .rangeWrap
  else none

/-- The size in bytes of one output element (40_mp3_bootstrap.md R79). -/
def elementBytes : Fmt → Nat
  | .s16 => 2
  | .f32 => 4

/-- `S`: the size in bytes of one output region, 1152 elements (R79). -/
def regionBytes (fmt : Fmt) : Nat := Config.mp3FrameSamples * elementBytes fmt

/-- `check_args` of MP3_DECODE_* (R79). -/
def checkDecodeArgs (fmt : Fmt) (inp len l r : Word) : Option Cause :=
  if len.toNat ≠ 0 ∧ addressTop < inp.toNat + len.toNat then some .rangeWrap
  else if addressTop < l.toNat + regionBytes fmt ∨ addressTop < r.toNat + regionBytes fmt then some .rangeWrap
  else if l.toNat < r.toNat + regionBytes fmt ∧ r.toNat < l.toNat + regionBytes fmt then some .bufferOverlap
  else none

/-- `rate_check(rate_a)` (43_vad_session.md R115): `RATE'` and `FLEN'` where it passes, none where it fails. -/
def rateCheck (rateA : Word) (u : VadUnit) : Option (Word × Word) :=
  if u.rate = 0 then
    if rateA ∈ Config.rates then some (rateA, flenOf rateA) else none
  else if rateA ≠ u.rate then none
  else some (u.rate, u.flen)

end Sys2Proof.Machine
end

