-- ==== Sys2Proof/Machine/Flags.lean ====
section
/-! DEFINITION. The status words, their write-one-to-clear fields, MP3_TRACE and the interrupt output (10_state.md
R16, R17, R28, R29, R33 to R35). -/

namespace Sys2Proof.Machine

/-- VAD_STATUS.BUSY: 1 from acceptance until `complete` (R16), while a command runs (log 18). -/
def vadBusy (u : VadUnit) : Bool := u.run.isSome

/-- MP3_STATUS.BUSY (R28; log 18). -/
def mp3Busy (u : Mp3Unit) : Bool := u.run.isSome

/-- The cause code in ERR_CAUSE (60_exceptions.md R126). -/
def causeCode : Cause → BitVec 4
  | .none => 0
  | .unknownOpcode => 1
  | .reservedBits => 2
  | .misaligned => 3
  | .rangeWrap => 4
  | .bufferOverlap => 5

/-- Bits [7:0] of a status word: ERR_CAUSE, OVERRUN, CMD_ERR, DONE, BUSY (R16, R28). -/
def statusLow (cause : Cause) (overrun cmdErr done busy : Bool) : BitVec 8 :=
  causeCode cause ++ BitVec.ofBool overrun ++ BitVec.ofBool cmdErr ++ BitVec.ofBool done ++ BitVec.ofBool busy

/-- VAD_STATUS as it reads (R16). -/
def vadStatusWord (u : VadUnit) : Word :=
  (0 : BitVec 23) ++ BitVec.ofBool u.rateReject
    ++ statusLow u.errCause u.overrun u.cmdErr u.done (vadBusy u)

/-- MP3_STATUS as it reads (R28). -/
def mp3StatusWord (u : Mp3Unit) : Word :=
  (0 : BitVec 22) ++ BitVec.ofBool u.needMore ++ BitVec.ofBool u.error
    ++ statusLow u.errCause u.overrun u.cmdErr u.done (mp3Busy u)

/-- A write of `w` to VAD_STATUS (R17). -/
def vadStatusWrite (w : Word) (u : VadUnit) : VadUnit :=
  { u with
    done := if w.getLsbD 1 then false else u.done
    cmdErr := if w.getLsbD 2 then false else u.cmdErr
    errCause := if w.getLsbD 2 then .none else u.errCause
    overrun := if w.getLsbD 3 then false else u.overrun }

/-- A write of `w` to MP3_STATUS (R29). -/
def mp3StatusWrite (w : Word) (u : Mp3Unit) : Mp3Unit :=
  { u with
    done := if w.getLsbD 1 then false else u.done
    cmdErr := if w.getLsbD 2 then false else u.cmdErr
    errCause := if w.getLsbD 2 then .none else u.errCause
    overrun := if w.getLsbD 3 then false else u.overrun }

/-- The two-bit encoding of the bootstrap state (40_mp3_bootstrap.md R82). -/
def bstCode : Bst → BitVec 2
  | .init => 0
  | .head => 1
  | .frame => 2
  | .done => 3

/-- MP3_TRACE as it reads (R33). -/
def traceWord (t : Trace) : Word :=
  (0 : BitVec 22) ++ bstCode t.endState ++ (0 : BitVec 2) ++ BitVec.ofBool t.hp3 ++ BitVec.ofBool t.hp2
    ++ BitVec.ofBool t.hp1 ++ BitVec.ofBool t.skip ++ t.ncalls

/-- IRQ_STATUS[1:0]: each unit's DONE and its enable bit (R35). -/
def irqStatus (s : State) : BitVec 2 :=
  (BitVec.ofBool s.mp3.done ++ BitVec.ofBool s.vad.done) &&& s.irqEnable

/-- The interrupt output IRQ: high while IRQ_STATUS is not 0 (60_exceptions.md R134). -/
def irqLine (s : State) : Bool := decide (irqStatus s ≠ 0)

end Sys2Proof.Machine
end

