-- ==== Sys2Proof/Machine/Ops.lean ====
section
/-! DEFINITION. The shared operations: host memory and the ring buffer, the ports, the rejection of a command write
(60_exceptions.md R127; the block takes no other exception, R135) and its clearing, overrun, acceptance and
`complete`, and the hardware reset. -/

namespace Sys2Proof.Machine

/-! ### Cells -/

/-- The value listed at an index. -/
def cellGet {n : Nat} : Cells n → Nat → Option (BitVec n)
  | [], _ => none
  | (k, v) :: rest, a => if a = k then some v else cellGet rest a

/-- The cells with the value at one index set, in canonical form. -/
def cellSet {n : Nat} : Cells n → Nat → BitVec n → Cells n
  | [], a, v => [(a, v)]
  | (k, w) :: rest, a, v =>
    if a < k then (a, v) :: (k, w) :: rest
    else if a = k then (a, v) :: rest
    else (k, w) :: cellSet rest a v

/-- The mask listed at an address; no bit where none is listed. -/
def maskAt (c : Cells 8) (a : Nat) : Byte := (cellGet c a).getD 0

/-- The masks with the bits of `m` added at an address. A mask without a bit is not listed. -/
def maskAdd (c : Cells 8) (a : Nat) (m : Byte) : Cells 8 :=
  if m = 0 then c else cellSet c a (maskAt c a ||| m)

/-- The masks outside the addresses from `lo` up to, and not including, `hi`. -/
def maskDrop (c : Cells 8) (lo hi : Nat) : Cells 8 := c.filter (fun e => decide (e.1 < lo) || decide (hi ≤ e.1))

/-! ### Host memory -/

/-- The byte known to stand at an address of host memory. -/
def readByte (mem : Memory) (a : Nat) : Option Byte := cellGet (n := 8) mem a

/-- The bits in which a byte's contents change; every bit where the old contents are not known. -/
def changedBits (old : Option Byte) (new : Byte) : Byte :=
  match old with
  | none => 0xFF
  | some b => b ^^^ new

/-- A byte written to host memory by any agent. While the VAD unit is BUSY the changed bits are remembered, since a
MemRead of them may then return old or new ones (20_memory.md R54; log 12). -/
def putByte (a : Nat) (b : Byte) (s : State) : State :=
  { s with
    mem := cellSet (n := 8) s.mem a b
    race := if vadBusy s.vad then maskAdd s.race a (changedBits (readByte s.mem a) b) else s.race }

/-- Whether an address lies in a region of `size` bytes at `base`. -/
def inRegion (base size a : Nat) : Bool := decide (base ≤ a) && decide (a < base + size)

/-- Whether an address lies in an output region of the running MP3_DECODE_* (20_memory.md R60). -/
def inRunningOutput (u : Mp3Unit) (a : Nat) : Bool :=
  match u.run with
  | none => false
  | some run =>
    match run.seq with
    | .reset _ => false
    | .decode fmt _ =>
      inRegion run.leftA.toNat (regionBytes fmt) a || inRegion run.rightA.toNat (regionBytes fmt) a

/-- A fresh word for a value that the rules do not fix. -/
def drawWord (s : State) : Word := Config.draw s.env.draws

/-- The state once a fresh word is used up. -/
def drawn (s : State) : State := { s with env := { s.env with draws := s.env.draws + 1 } }

/-- One of the host's own writes of a byte of host memory (60_exceptions.md R141). Into an output region of a running
MP3_DECODE_* it leaves any value (93 U4; log 14). Where P_COHERENT is false its changed bits stay unclean until the
host cleans them (20_memory.md R59; log 13). -/
def hostStore (addr : Word) (b : Byte) (s : State) : State :=
  let a := addr.toNat
  let racing := inRunningOutput s.mp3 a
  let stored : Byte := if racing then (drawWord s).extractLsb' 0 8 else b
  let stale := if Config.pCoherent then s.stale else maskAdd s.stale a (changedBits (readByte s.mem a) stored)
  let s' := putByte a stored (if racing then drawn s else s)
  { s' with stale := stale }

/-- The host cleans the range of `len` bytes at `addr` from its caches (20_memory.md R59; log 13). -/
def hostClean (addr len : Word) (s : State) : State :=
  { s with stale := maskDrop s.stale addr.toNat (addr.toNat + len.toNat) }

/-- The little-endian word at an address of host memory (20_memory.md R49), none where a byte of it is not known. -/
def wordAt (mem : Memory) (a : Nat) : Option Word :=
  match readByte mem a, readByte mem (a + 1), readByte mem (a + 2), readByte mem (a + 3) with
  | some b0, some b1, some b2, some b3 => some (b3 ++ b2 ++ b1 ++ b0)
  | _, _, _, _ => none

/-- The mask of the word at an address. -/
def maskWordAt (c : Cells 8) (a : Nat) : Word := maskAt c (a + 3) ++ maskAt c (a + 2) ++ maskAt c (a + 1) ++ maskAt c a

/-- The bits of the word at an address that a MemRead may return old or new (20_memory.md R54, R59). -/
def unfixedBits (s : State) (a : Nat) : Word := maskWordAt s.race a ||| maskWordAt s.stale a

/-- What host memory answers to `MemRead(a, 4)` (20_memory.md R50), and the state after it: the word as memory holds
it, each unfixed bit old or new (R54); P_MEMREAD's word, or no answer, where no memory backs the address. -/
def memRead (a : Word) (s : State) : Option (Word × State) :=
  match wordAt s.mem a.toNat with
  | none => (Config.pMemRead a).map (fun w => (w, s))
  | some w =>
    if unfixedBits s a.toNat = 0 then some (w, s)
    else some ((w &&& ~~~ unfixedBits s a.toNat) ||| (drawWord s &&& unfixedBits s a.toNat), drawn s)

/-- Bytes written into a region of `size` bytes at `base`; a write outside the region or past 2^32 is none of the
region's (log 16). -/
def writeRegion (base size : Nat) : List (Nat × Byte) → State → State
  | [], s => s
  | (k, b) :: rest, s =>
    writeRegion base size rest (if k < size ∧ base + k < addressTop then putByte (base + k) b s else s)

/-- Bytes written into the two output regions of an MP3_DECODE_* (20_memory.md R48, R61). -/
def writeOutputs (fmt : Fmt) (left right : Word) (w : OutputWrites) (s : State) : State :=
  writeRegion right.toNat (regionBytes fmt) w.right (writeRegion left.toNat (regionBytes fmt) w.left s)

/-! ### The ring buffer -/

/-- `RB[k]` (10_state.md R37): what was written there, or the free contents after reset (log 7). -/
def ringRead (u : VadUnit) (k : Nat) : Sample := (cellGet u.rb k).getD (Config.rbContents u.rbEpoch k)

/-- `RB[0 : len]`. -/
def ringPrefix (u : VadUnit) (len : Nat) : List Sample := (List.range len).map (ringRead u)

/-- Word `k` of RB_WIN while the VAD unit is idle (10_state.md R36). -/
def ringWord (u : VadUnit) (k : Nat) : Word := ringRead u (2 * k + 1) ++ ringRead u (2 * k)

/-! ### Rejection, overrun, acceptance -/

/-- `raise Reject(cause)` on a unit (60_exceptions.md R127): CMD_ERR and ERR_CAUSE, and nothing else. It is the
block's only exception: it saves nothing and goes nowhere (R135), and there is no return from it (R136) but the host's
clearing of CMD_ERR, which is `vadStatusWrite` and `mp3StatusWrite` (10_state.md R17, R29). -/
def reject (u : UnitId) (cause : Cause) (s : State) : State :=
  match u with
  | .vad => { s with vad := { s.vad with cmdErr := true, errCause := cause } }
  | .mp3 => { s with mp3 := { s.mp3 with cmdErr := true, errCause := cause } }

/-- A write to a command register while its unit is BUSY (60_exceptions.md R128): OVERRUN, and nothing else. -/
def overrun (u : UnitId) (s : State) : State :=
  match u with
  | .vad => { s with vad := { s.vad with overrun := true } }
  | .mp3 => { s with mp3 := { s.mp3 with overrun := true } }

/-- BUSY of a unit. -/
def busy (u : UnitId) (s : State) : Bool :=
  match u with
  | .vad => vadBusy s.vad
  | .mp3 => mp3Busy s.mp3

/-- Acceptance on the VAD unit (30_encoding.md R72, R73): the arguments are latched, BUSY is set, DONE is cleared and
the command starts. No byte has been written yet while BUSY (20_memory.md R54). -/
def acceptVad (seq : VadSeq) (s : State) : State :=
  { s with
    vad := { s.vad with
      done := false
      memLog := []
      run := some { rateA := s.vad.arg0, addrA := s.vad.arg1, blenA := s.vad.arg2, seq := seq } }
    race := [] }

/-- Acceptance on the MP3 unit (30_encoding.md R72, R73). -/
def acceptMp3 (seq : Mp3Seq) (s : State) : State :=
  { s with
    mp3 := { s.mp3 with
      done := false
      run := some { inA := s.mp3.arg0, lenA := s.mp3.arg1, leftA := s.mp3.arg2, rightA := s.mp3.arg3, seq := seq } } }

/-- The acceptance procedure of a VAD command whose word is legal (30_encoding.md R72), `check` being its argument
check. -/
def issueVad (seq : VadSeq) (check : Option Cause) (s : State) : State :=
  if vadBusy s.vad then overrun .vad s
  else match check with
    | some cause => reject .vad cause s
    | none => acceptVad seq s

/-- The acceptance procedure of an MP3 command whose word is legal (30_encoding.md R72). -/
def issueMp3 (seq : Mp3Seq) (check : Option Cause) (s : State) : State :=
  if mp3Busy s.mp3 then overrun .mp3 s
  else match check with
    | some cause => reject .mp3 cause s
    | none => acceptMp3 seq s

/-! ### Completion -/

/-- `complete(VAD)` (60_exceptions.md R132): every working copy into its register, BUSY to 0 and DONE to 1, in one
step. -/
def completeVad (c : VadCommit) (s : State) : State :=
  { s with
    vad := { s.vad with
      rate := (c.session.map Session.rate).getD s.vad.rate
      flen := (c.session.map Session.flen).getD s.vad.flen
      off := (c.session.map Session.off).getD s.vad.off
      mode := c.mode.getD s.vad.mode
      hist := c.hist.getD s.vad.hist
      result := c.result
      rateReject := c.rateReject
      run := none
      done := true } }

/-- `complete(MP3)` (60_exceptions.md R132). -/
def completeMp3 (c : Mp3Commit) (s : State) : State :=
  { s with
    mp3 := { s.mp3 with
      n := c.n, samples := c.samples, error := c.error, needMore := c.needMore, trace := c.trace,
      run := none, done := true } }

/-! ### The sequencers and their ports -/

/-- The VAD unit's sequencer at another position of its command. -/
def vadGoto (seq : VadSeq) (s : State) : State :=
  { s with vad := { s.vad with run := s.vad.run.map (fun r => { r with seq := seq }) } }

/-- The MP3 unit's sequencer at another position of its command. -/
def mp3Goto (seq : Mp3Seq) (s : State) : State :=
  { s with mp3 := { s.mp3 with run := s.mp3.run.map (fun r => { r with seq := seq }) } }

/-- `IVAD.reset()`: one pulse (43_vad_session.md R119). -/
def pulseIvad (s : State) : State := { s with vad := { s.vad with ivadLog := .reset :: s.vad.ivadLog } }

/-- `IDEC.reset()`: one pulse (40_mp3_bootstrap.md R80). -/
def pulseIdec (s : State) : State := { s with mp3 := { s.mp3 with idecLog := .reset :: s.mp3.idecLog } }

/-- A request on the memory port (20_memory.md R50). -/
def postMem (a : Word) (s : State) : State := { s with vad := { s.vad with memPort := .pending a } }

/-- A request on the inner-VAD port (43_vad_session.md R119). -/
def postIvad (r : IvadReq) (s : State) : State :=
  { s with vad := { s.vad with ivadPort := .pending r, ivadLog := .request r :: s.vad.ivadLog } }

/-- A request on the inner-decoder port (40_mp3_bootstrap.md R80). -/
def postIdec (r : IdecReq) (s : State) : State :=
  { s with mp3 := { s.mp3 with idecPort := .pending r, idecLog := .request r :: s.mp3.idecLog } }

/-! ### Hardware reset -/

/-- The output regions of an MP3_DECODE_* that a reset abandons: they may hold any value
(70_reset_and_hazards.md R147, 93 U13; log 15). -/
def abandonOutputs (s : State) : State :=
  match s.mp3.run with
  | none => s
  | some run =>
    match run.seq with
    | .reset _ => s
    | .decode fmt _ => writeOutputs fmt run.leftA run.rightA (Config.abandonedWrites s.env.draws) (drawn s)

/-- The reset procedure, as one step (70_reset_and_hazards.md R145): every register to its reset value, running
commands abandoned, pending requests withdrawn, both ports pulsed, RB unspecified. -/
def hardReset (s : State) : State :=
  { abandonOutputs s with
    vad := VadUnit.reset (s.vad.rbEpoch + 1) s.vad.ivadLog
    mp3 := Mp3Unit.reset s.mp3.idecLog
    irqEnable := 0
    race := [] }

end Sys2Proof.Machine
end

