-- ==== Sys2Proof/Machine/Mp3.lean ====
section
/-! DEFINITION. MP3_DECODE_S16, MP3_DECODE_F32 and MP3_RESET (40_mp3_bootstrap.md R92 to R94): the bootstrap and
skip paths (R82 to R87). -/

namespace Sys2Proof.Machine

/-- The transition function `T(BST, n, hp)` (R83). `T` has no row for `done`, where no call is made (log 22). -/
def bootNext (b : Bst) (n : Word) (hp : Bool) : Bst :=
  match b with
  | .init => if n.toInt = 0 then (if hp then .frame else .head) else .done
  | .head => if n.toInt = 0 ∧ hp = true then .frame else .done
  | .frame => .done
  | .done => .done

/-- The working state before the first call (R85, R86). -/
def bootStart : Boot := { bst := .init, ncalls := 0, hp1 := false, hp2 := false, hp3 := false }

/-- The request of the next call: the first call of the bootstrap path feeds the input; every other call is a flush
call with address and length 0 (R84, R85, R86). -/
def decodeRequest (fmt : Fmt) (run : Mp3Run) (b : Boot) : IdecReq :=
  if b.ncalls = 0 ∧ run.lenA ≠ 0 then
    { fmt := fmt, inPtr := run.inA, inLen := run.lenA, left := run.leftA, right := run.rightA }
  else { fmt := fmt, inPtr := 0, inLen := 0, left := run.leftA, right := run.rightA }

/-- The working state once a call's answer is recorded: `ncalls` counts it and `hp[ncalls]` keeps its flag; BST
moves by `T` on the bootstrap path only (R85, R86). -/
def bootAfter (run : Mp3Run) (b : Boot) (n : Word) (hp : Bool) : Boot :=
  { bst := if run.lenA = 0 then b.bst else bootNext b.bst n hp
    ncalls := b.ncalls + 1
    hp1 := if b.ncalls = 0 then hp else b.hp1
    hp2 := if b.ncalls = 1 then hp else b.hp2
    hp3 := if b.ncalls = 2 then hp else b.hp3 }

/-- Where the sequencer stands once an answer is recorded: at `finish` after the single call of the skip path or
where BST is `done`, else before the next flush call (R85, R86). -/
def posAfter (run : Mp3Run) (b : Boot) (n : Word) : DecPos :=
  if run.lenA = 0 ∨ b.bst = .done then .finish b n else .call b

/-- The working copies of an MP3_DECODE_*: `finish(n, BST, skip)` (R87). -/
def decodeCommit (run : Mp3Run) (b : Boot) (n : Word) : Mp3Commit :=
  { n := n
    samples := if 0 < n.toInt then n else 0
    error := decide (n.toInt < 0)
    needMore := decide (n.toInt = 0) && decide (b.bst = .done)
    trace :=
      { ncalls := BitVec.ofNat 2 b.ncalls, skip := decide (run.lenA = 0), hp1 := b.hp1, hp2 := b.hp2, hp3 := b.hp3,
        endState := b.bst } }

/-- An answer of the inner decoder is taken from the port (R85, R86). -/
def takeAnswer (fmt : Fmt) (run : Mp3Run) (b : Boot) (n : Word) (hp : Bool) (s : State) : State :=
  mp3Goto (.decode fmt (posAfter run (bootAfter run b n hp) n)) { s with mp3 := { s.mp3 with idecPort := .idle } }

/-- The MP3 unit's next step of an MP3_DECODE_* with format `fmt` (R92, R93). A unit that waits for the port takes no
step until the answer is there. -/
def runDecode (fmt : Fmt) (s : State) : State :=
  match s.mp3.run with
  | none => s
  | some run =>
    match run.seq with
    | .reset _ => s
    | .decode f pos =>
      if f = fmt then
        match pos with
        | .call b => mp3Goto (.decode fmt (.wait b)) (postIdec (decodeRequest fmt run b) s)
        | .wait b =>
          match s.mp3.idecPort with
          | .answered (n, hp) => takeAnswer fmt run b n hp s
          | .idle => s
          | .pending _ => s
        | .finish b n => completeMp3 (decodeCommit run b n) s
      else s

/-- The acceptance procedure of an MP3_DECODE_* (R79, R92, R93). -/
def issueDecode (fmt : Fmt) (s : State) : State :=
  issueMp3 (.decode fmt (.call bootStart)) (checkDecodeArgs fmt s.mp3.arg0 s.mp3.arg1 s.mp3.arg2 s.mp3.arg3) s

/-- MP3_DECODE_S16 (R92). -/
def execMp3DecodeS16 (s : State) : Result :=
  match s.env.turn with
  | .host => .next (issueDecode .s16 s)
  | .mp3Unit => .next (runDecode .s16 s)
  | _ => .next s

/-- MP3_DECODE_F32 (R93). -/
def execMp3DecodeF32 (s : State) : Result :=
  match s.env.turn with
  | .host => .next (issueDecode .f32 s)
  | .mp3Unit => .next (runDecode .f32 s)
  | _ => .next s

/-- The working copies of MP3_RESET (R94). -/
def resetCommit : Mp3Commit := { n := 0, samples := 0, error := false, needMore := false, trace := traceZero }

/-- The MP3 unit's next step of MP3_RESET (R94): the reset pulse, then `complete`. -/
def runMp3Reset (s : State) : State :=
  match s.mp3.run.map Mp3Run.seq with
  | some (.reset false) => mp3Goto (.reset true) (pulseIdec s)
  | some (.reset true) => completeMp3 resetCommit s
  | _ => s

/-- MP3_RESET (R94). -/
def execMp3Reset (s : State) : Result :=
  match s.env.turn with
  | .host => .next (issueMp3 (.reset false) none s)
  | .mp3Unit => .next (runMp3Reset s)
  | _ => .next s

end Sys2Proof.Machine
end

