-- ==== Sys2Proof/Machine/Decide.lean ====
section
/-! DEFINITION. The verdict alphabet (43_vad_session.md R119), the histogram (42_vad_decision.md R108) and the
majority decision DECIDE (R109). -/

namespace Sys2Proof.Machine

/-- The total `t = e + s + v + n` of a histogram (R108). -/
def countsTotal (h : Counts) : Nat := h.e + h.s + h.v + h.n

/-- The histogram at the start of a command (41_vad_frame_assembler.md R99). -/
def countsZero : Counts := { e := 0, s := 0, v := 0, n := 0 }

/-- The histogram after one more frame, by its verdict code (41_vad_frame_assembler.md R102, 43_vad_session.md
R119): 0b00 silence, 0b01 voice, 0b10 noise, 0b11 error. -/
def countVerdict (h : Counts) (code : BitVec 2) : Counts :=
  if code = 0 then { h with s := h.s + 1 }
  else if code = 1 then { h with v := h.v + 1 }
  else if code = 2 then { h with n := h.n + 1 }
  else { h with e := h.e + 1 }

/-- The histogram as the registers VAD_HIST_* hold it (10_state.md R26). -/
def countsRegs (h : Counts) : HistRegs :=
  { err := BitVec.ofNat 32 h.e, sil := BitVec.ofNat 32 h.s, voi := BitVec.ofNat 32 h.v,
    noi := BitVec.ofNat 32 h.n }

/-- `DECIDE(e, s, v, n)` (R109), as the integer of its event: ERROR -1, SILENCE 0, VOICE 1. -/
def decideEvent (h : Counts) : Int :=
  if countsTotal h = 0 then 0
  else if 0 < h.e then -1
  else if 4 * countsTotal h ≤ 5 * h.v then 1
  else 0

/-- `bits_i32` of an event (00_scope.md R8, 43_vad_session.md R125). -/
def eventBits (event : Int) : Word := BitVec.ofInt 32 event

end Sys2Proof.Machine
end

