-- ==== Sys2Proof/Machine/Quant.lean ====
section
/-! DEFINITION. The quantizer QUANT (41_vad_frame_assembler.md R96), on exact numbers. -/

namespace Sys2Proof.Machine

/-- The sign bit of a binary32 pattern (00_scope.md R8). -/
def f32Sign (w : Word) : Bool := w.getLsbD 31

/-- The biased exponent field, bits [30:23]. -/
def f32Exp (w : Word) : Nat := (w.extractLsb' 23 8).toNat

/-- The fraction field, bits [22:0]. -/
def f32Frac (w : Word) : Nat := (w.extractLsb' 0 23).toNat

/-- Whether the pattern is a NaN. -/
def f32IsNaN (w : Word) : Bool := decide (f32Exp w = 255) && decide (f32Frac w ≠ 0)

/-- Whether the pattern is an infinity. -/
def f32IsInf (w : Word) : Bool := decide (f32Exp w = 255) && decide (f32Frac w = 0)

/-- `|x| * 2^149` of a finite pattern, an integer: the significand (with its hidden bit unless subnormal) times
`2^(exponent - 1)` (binary32, 00_scope.md R8). -/
def f32Magnitude (w : Word) : Nat :=
  if f32Exp w = 0 then f32Frac w else (8388608 + f32Frac w) * 2 ^ (f32Exp w - 1)

/-- `floor(|v| + 1/2)` of the exact product `v = x * 32768`: as `|x|` is `m / 2^149`, `|v|` is `m / 2^134`
(R96). -/
def roundedScaled (m : Nat) : Nat := (m + 2 ^ 133) / 2 ^ 134

/-- The sample with a sign and a size. -/
def signedSample (negative : Bool) (size : Nat) : Sample :=
  if negative then BitVec.ofInt 16 (-(size : Int)) else BitVec.ofInt 16 (size : Int)

/-- `QUANT(w)` (R96): NaN gives 0, an infinity is clipped, a finite value is scaled by 32768, rounded half away from
zero and clipped to ±32767. -/
def quant (w : Word) : Sample :=
  if f32IsNaN w then 0
  else if f32IsInf w then signedSample (f32Sign w) 32767
  else signedSample (f32Sign w) (min (roundedScaled (f32Magnitude w)) 32767)

end Sys2Proof.Machine
end

