-- ==== Sys2Proof/Machine/VadProcess.lean ====
section
/-! DEFINITION. VAD_PROCESS (43_vad_session.md R124): the rate check (R115, R116), the frame iterator
(41_vad_frame_assembler.md R99 to R102) and the decision (42_vad_decision.md R109). -/

namespace Sys2Proof.Machine

/-- The working copies of a VAD_PROCESS whose rate check fails (R116). -/
def rateFailCommit : VadCommit :=
  { session := none, mode := none, hist := some { err := 0, sil := 0, voi := 0, noi := 0 },
    result := eventBits (-1), rateReject := true }

/-- The working copies of a VAD_PROCESS at the end of its iterator (R124). -/
def processCommit (w : ProcWork) : VadCommit :=
  { session := some { rate := w.rate, flen := w.flen, off := BitVec.ofNat 32 w.off }
    mode := none
    hist := some (countsRegs w.hist)
    result := eventBits (decideEvent w.hist)
    rateReject := false }

/-- The start of the iterator (41_vad_frame_assembler.md R99), with `RATE'` and `FLEN'` of the rate check. -/
def startWork (rate flen : Word) (run : VadRun) (u : VadUnit) : ProcWork :=
  { rate := rate, flen := flen, off := u.off.toNat, rem := sampleCount run.blenA, p := run.addrA.toNat,
    hist := countsZero }

/-- The request for the frame `RB[0 : flen]` (41_vad_frame_assembler.md R102). -/
def frameRequest (w : ProcWork) (u : VadUnit) : IvadReq :=
  { mode := u.mode, rate := w.rate, flen := w.flen, samples := ringPrefix u w.flen.toNat }

/-- One pass of the iterator loop (41_vad_frame_assembler.md R100), its steps tested in the rule's order: a full
frame is requested; without input left the command completes; else the next sample is read (R101; log 6). -/
def iterate (w : ProcWork) (s : State) : Result :=
  if w.flen.toNat ≤ w.off then
    .next (vadGoto (.process (.ivadWait w)) (postIvad (frameRequest w s.vad) s))
  else if w.rem = 0 then .next (completeVad (processCommit w) s)
  else if w.p % 4 = 0 ∧ w.p + 4 ≤ addressTop then
    .next (vadGoto (.process (.memWait w)) (postMem (BitVec.ofNat 32 w.p) s))
  else .fault (.memReadOutsideRule w.p)

/-- The iterator once one sample is filled (41_vad_frame_assembler.md R100, step 3). -/
def workAfterSample (w : ProcWork) : ProcWork := { w with off := w.off + 1, rem := w.rem - 1, p := w.p + 4 }

/-- `RB[off] <- QUANT(w)` with the word that a MemRead returned (41_vad_frame_assembler.md R101), the port free
again. -/
def fillSample (w : ProcWork) (word : Word) (s : State) : State :=
  { s with
    vad := { s.vad with
      rb := cellSet s.vad.rb w.off (quant word)
      memPort := .idle
      memLog := (BitVec.ofNat 32 w.p, word) :: s.vad.memLog } }

/-- A sample is filled and the loop goes on, in one step of the unit: 60_exceptions.md R141 gives the unit one step for
each MemRead, its request, so the word is taken in the unit's next step, whatever that is (log 3). -/
def takeSample (w : ProcWork) (word : Word) (s : State) : Result :=
  if w.off < Config.rbCap then iterate (workAfterSample w) (fillSample w word s)
  else .fault (.ringIndexOutside w.off)

/-- The iterator once a frame's verdict is counted (41_vad_frame_assembler.md R100, R102): the offset is back
at 0. -/
def workAfterVerdict (w : ProcWork) (code : BitVec 2) : ProcWork :=
  { w with off := 0, hist := countVerdict w.hist code }

/-- The verdict of a frame is taken from the port (41_vad_frame_assembler.md R102). -/
def takeVerdict (w : ProcWork) (code : BitVec 2) (s : State) : State :=
  vadGoto (.process (.loop (workAfterVerdict w code))) { s with vad := { s.vad with ivadPort := .idle } }

/-- The VAD unit's next step of VAD_PROCESS (R124). A unit that waits for a port takes no step until the answer is
there. -/
def runVadProcess (s : State) : Result :=
  match s.vad.run with
  | none => .next s
  | some run =>
    match run.seq with
    | .init _ => .next s
    | .setmode => .next s
    | .process .start =>
      match rateCheck run.rateA s.vad with
      | none => .next (completeVad rateFailCommit s)
      | some (rate, flen) => iterate (startWork rate flen run s.vad) s
    | .process (.loop w) => iterate w s
    | .process (.memWait w) =>
      match s.vad.memPort with
      | .answered word => takeSample w word s
      | .idle => .next s
      | .pending _ => .next s
    | .process (.ivadWait w) =>
      match s.vad.ivadPort with
      | .answered code => .next (takeVerdict w code s)
      | .idle => .next s
      | .pending _ => .next s

/-- VAD_PROCESS (R124). -/
def execVadProcess (s : State) : Result :=
  match s.env.turn with
  | .host => .next (issueVad (.process .start) (checkProcessArgs s.vad.arg1 s.vad.arg2) s)
  | .vadUnit => runVadProcess s
  | _ => .next s

end Sys2Proof.Machine
end

