-- ==== Sys2Proof/Machine/VadSession.lean ====
section
/-! DEFINITION. VAD_INIT and VAD_SETMODE (43_vad_session.md R122, R123). The meaning of a command says what one step
of it does: at the host's turn, its word is written to the command register (30_encoding.md R72); at its unit's turn,
the unit takes the command's next step (60_exceptions.md R141). Log 2. -/

namespace Sys2Proof.Machine

/-- The working copies of VAD_INIT (R122). -/
def initCommit : VadCommit :=
  { session := some { rate := 0, flen := 0, off := 0 }
    mode := some 0
    hist := some { err := 0, sil := 0, voi := 0, noi := 0 }
    result := 1
    rateReject := false }

/-- The VAD unit's next step of VAD_INIT (R122): the reset pulse, then `complete`. -/
def runVadInit (s : State) : State :=
  match s.vad.run.map VadRun.seq with
  | some (.init false) => vadGoto (.init true) (pulseIvad s)
  | some (.init true) => completeVad initCommit s
  | _ => s

/-- VAD_INIT (R122). -/
def execVadInit (s : State) : Result :=
  match s.env.turn with
  | .host => .next (issueVad (.init false) none s)
  | .vadUnit => .next (runVadInit s)
  | _ => .next s

/-- The working copies of VAD_SETMODE with the mode operand `m`, a whole `u32` (R123, 30_encoding.md R74). -/
def setmodeCommit (m : Word) : VadCommit :=
  if m.toNat ≤ 3 then
    { session := none, mode := some (m.setWidth 2), hist := none, result := 1, rateReject := false }
  else
    { session := none, mode := none, hist := none, result := 0, rateReject := false }

/-- The VAD unit's step of VAD_SETMODE (R123): `complete`. -/
def runVadSetmode (s : State) : State :=
  match s.vad.run with
  | some { rateA := m, addrA := _, blenA := _, seq := .setmode } => completeVad (setmodeCommit m) s
  | _ => s

/-- VAD_SETMODE (R123). -/
def execVadSetmode (s : State) : Result :=
  match s.env.turn with
  | .host => .next (issueVad .setmode none s)
  | .vadUnit => .next (runVadSetmode s)
  | _ => .next s

end Sys2Proof.Machine
end

