-- ==== Sys2Proof/Machine/Dispatch.lean ====
section
/-! DEFINITION. One arm per command (30_encoding.md R70). -/

namespace Sys2Proof.Machine

def exec (i : Instr) (s : State) : Host.Outcome State Fault Refusal :=
  match i with
  | .vadInit => Sys2Proof.Machine.execVadInit s
  | .vadSetmode => Sys2Proof.Machine.execVadSetmode s
  | .vadProcess => Sys2Proof.Machine.execVadProcess s
  | .mp3DecodeS16 => Sys2Proof.Machine.execMp3DecodeS16 s
  | .mp3DecodeF32 => Sys2Proof.Machine.execMp3DecodeF32 s
  | .mp3Reset => Sys2Proof.Machine.execMp3Reset s

end Sys2Proof.Machine
end

