-- ==== Sys2Proof/Machine/Window.lean ====
section
/-! DEFINITION. The register window (10_state.md sections 1 to 4): what a read of a register returns, and what a
write does, a command write among them (30_encoding.md R71, R72). -/

namespace Sys2Proof.Machine

/-- What an aligned 32-bit read of a register returns (R11, R14 and each register's own rule). A word of RB_WIN is any
value while the VAD unit is BUSY (R36; log 20). -/
def regValue (r : Reg) (s : State) : Word :=
  match r with
  | .vadCmd => 0
  | .vadStatus => vadStatusWord s.vad
  | .vadArg0 => s.vad.arg0
  | .vadArg1 => s.vad.arg1
  | .vadArg2 => s.vad.arg2
  | .vadResult => s.vad.result
  | .vadRate => s.vad.rate
  | .vadFlen => s.vad.flen
  | .vadOff => s.vad.off
  | .vadMode => s.vad.mode.setWidth 32
  | .vadHistErr => s.vad.hist.err
  | .vadHistSil => s.vad.hist.sil
  | .vadHistVoi => s.vad.hist.voi
  | .vadHistNoi => s.vad.hist.noi
  | .mp3Cmd => 0
  | .mp3Status => mp3StatusWord s.mp3
  | .mp3Arg0 => s.mp3.arg0
  | .mp3Arg1 => s.mp3.arg1
  | .mp3Arg2 => s.mp3.arg2
  | .mp3Arg3 => s.mp3.arg3
  | .mp3N => s.mp3.n
  | .mp3Samples => s.mp3.samples
  | .mp3Trace => traceWord s.mp3.trace
  | .irqEnable => s.irqEnable.setWidth 32
  | .irqStatus => (irqStatus s).setWidth 32
  | .rbWin k => if vadBusy s.vad then drawWord s else ringWord s.vad k

/-- Whether an access is an aligned 32-bit access (R12). -/
def alignedWord (offset : BitVec 13) (width : Width) : Bool :=
  decide (width = .w32) && decide (offset.toNat % 4 = 0)

/-- What a read of the window returns: 0 for an access of another width or alignment (R12) and for an offset that is
not listed (R13). -/
def windowValue (offset : BitVec 13) (width : Width) (s : State) : Word :=
  if alignedWord offset width then
    match regAt offset.toNat with
    | some r => regValue r s
    | none => 0
  else 0

/-- A write of `w` to a unit's command register (30_encoding.md R72). While BUSY it is dropped, whatever the word;
an illegal word is rejected with its cause; a legal word is a step of its command, which does the rest of the
procedure (`issueVad`, `issueMp3`). -/
def commandWrite (u : UnitId) (w : Word) (s : State) : Result :=
  match decodeCommand u w with
  | .ok i => exec i s
  | .error cause => .next (if busy u s then overrun u s else reject u cause s)

/-- What an aligned 32-bit write of `w` to a register does (R11, R14, R17, R29, R34 and R15, R27). A write to a
register marked R is ignored. -/
def regWrite (r : Reg) (w : Word) (s : State) : Result :=
  match r with
  | .vadCmd => commandWrite .vad w s
  | .mp3Cmd => commandWrite .mp3 w s
  | .vadStatus => .next { s with vad := vadStatusWrite w s.vad }
  | .mp3Status => .next { s with mp3 := mp3StatusWrite w s.mp3 }
  | .vadArg0 => .next { s with vad := { s.vad with arg0 := w } }
  | .vadArg1 => .next { s with vad := { s.vad with arg1 := w } }
  | .vadArg2 => .next { s with vad := { s.vad with arg2 := w } }
  | .mp3Arg0 => .next { s with mp3 := { s.mp3 with arg0 := w } }
  | .mp3Arg1 => .next { s with mp3 := { s.mp3 with arg1 := w } }
  | .mp3Arg2 => .next { s with mp3 := { s.mp3 with arg2 := w } }
  | .mp3Arg3 => .next { s with mp3 := { s.mp3 with arg3 := w } }
  | .irqEnable => .next { s with irqEnable := w.setWidth 2 }
  | .vadResult => .next s
  | .vadRate => .next s
  | .vadFlen => .next s
  | .vadOff => .next s
  | .vadMode => .next s
  | .vadHistErr => .next s
  | .vadHistSil => .next s
  | .vadHistVoi => .next s
  | .vadHistNoi => .next s
  | .mp3N => .next s
  | .mp3Samples => .next s
  | .mp3Trace => .next s
  | .irqStatus => .next s
  | .rbWin _ => .next s

/-- A write to the window: ignored for an access of another width or alignment (R12) and at an offset that is not
listed (R13). -/
def windowWrite (offset : BitVec 13) (width : Width) (w : Word) (s : State) : Result :=
  if alignedWord offset width then
    match regAt offset.toNat with
    | some r => regWrite r w s
    | none => .next s
  else .next s

end Sys2Proof.Machine
end

