-- ==== Sys2Proof/Machine/Agents.lean ====
section
/-! DEFINITION. The step of each agent (60_exceptions.md R141), and whose turn it is (R142). An agent with no step to
take leaves the state as it is (R140). -/

namespace Sys2Proof.Machine

/-! ### The host -/

/-- The host has taken its next transaction. -/
def popHostOp (s : State) : State := { s with env := { s.env with hostOps := s.env.hostOps.tail } }

/-- A read returns a value to the host. No read changes the block (10_state.md R13); a free word that a read of
RB_WIN returned while BUSY is used up (log 20). -/
def pushResult (v : Word) (s : State) : State :=
  drawn { s with env := { s.env with results := v :: s.env.results } }

/-- A read of the window by the host (30_encoding.md R77). -/
def hostRead (offset : BitVec 13) (width : Width) (s : State) : State := pushResult (windowValue offset width s) s

/-- A POLL or POLLANY reads the window; it is done where the test holds, else it is the host's next transaction again
(30_encoding.md R77; log 24). -/
def hostPoll (offset : BitVec 13) (passed : Word → Bool) (s : State) : State :=
  pushResult (windowValue offset .w32 s) (if passed (windowValue offset .w32 s) then popHostOp s else s)

/-- The little-endian word of an access's first four bytes (20_memory.md R49, R67). -/
def wordOfBytes : List Byte → Word
  | [] => 0
  | b :: rest => (wordOfBytes rest <<< 8) ||| b.setWidth 32

/-- The host's own write of an access's bytes to host memory, the lowest address first. A byte past 2^32 has no
address (20_memory.md R47; log 26). -/
def hostStoreBytes (addr : Nat) : List Byte → State → State
  | [], s => s
  | b :: rest, s =>
    hostStoreBytes (addr + 1) rest (if addr < addressTop then hostStore (BitVec.ofNat 32 addr) b s else s)

/-- The host's transaction `op`, already taken from its list (but for POLL and POLLANY, which `hostPoll` takes when
they are done). -/
def hostOp (op : HostOp) (s : State) : Result :=
  match op with
  | .write offset width value => windowWrite offset width value (popHostOp s)
  | .read offset width => .next (hostRead offset width (popHostOp s))
  | .poll offset mask val => .next (hostPoll offset (fun v => decide (v &&& mask = val)) s)
  | .pollAny offset mask => .next (hostPoll offset (fun v => decide (v &&& mask ≠ 0)) s)
  | .busWrite addr bytes =>
    match windowOffset addr with
    | some offset => windowWrite offset { bytes := bytes.length } (wordOfBytes bytes) (popHostOp s)
    | none => .next (hostStoreBytes addr.toNat bytes (popHostOp s))
  | .busRead addr width =>
    match windowOffset addr with
    | some offset => .next (hostRead offset width (popHostOp s))
    | none => .next (popHostOp s)
  | .store addr byte => .next (hostStore addr byte (popHostOp s))
  | .clean addr len => .next (hostClean addr len (popHostOp s))
  | .assertRst => .next (hardReset (popHostOp s))

/-- The host's step: its next transaction; nothing where it has none. -/
def hostMove (s : State) : Result :=
  match s.env.hostOps with
  | [] => .next s
  | op :: _ => hostOp op s

/-! ### The units -/

/-- The running VAD command, `op_a` (10_state.md R38). -/
def vadCommand (r : VadRun) : Instr :=
  match r.seq with
  | .init _ => .vadInit
  | .setmode => .vadSetmode
  | .process _ => .vadProcess

/-- The running MP3 command, `op_a` (10_state.md R38). -/
def mp3Command (r : Mp3Run) : Instr :=
  match r.seq with
  | .decode .s16 _ => .mp3DecodeS16
  | .decode .f32 _ => .mp3DecodeF32
  | .reset _ => .mp3Reset

/-- The VAD unit's step: the next step of its running command. -/
def vadMove (s : State) : Result :=
  match s.vad.run with
  | none => .next s
  | some r => exec (vadCommand r) s

/-- The MP3 unit's step: the next step of its running command. -/
def mp3Move (s : State) : Result :=
  match s.mp3.run with
  | none => .next s
  | some r => exec (mp3Command r) s

/-! ### The external agents -/

/-- Host memory answers a MemRead (20_memory.md R50). -/
def memoryMove (s : State) : State :=
  match s.vad.memPort with
  | .idle => s
  | .answered _ => s
  | .pending a =>
    match memRead a s with
    | none => s
    | some (w, s') => { s' with vad := { s'.vad with memPort := .answered w } }

/-- The inner VAD answers a request (43_vad_session.md R120): the next answer supplied from outside, else the
oracle's (log 17). -/
def innerVadMove (s : State) : State :=
  match s.vad.ivadPort with
  | .idle => s
  | .answered _ => s
  | .pending r =>
    let code := s.env.ivadAnswers.headD (Config.ivad s.vad.ivadLog r)
    { s with
      vad := { s.vad with ivadPort := .answered code, ivadLog := .answer code :: s.vad.ivadLog }
      env := { s.env with ivadAnswers := s.env.ivadAnswers.tail } }

/-- The inner decoder answers a request (40_mp3_bootstrap.md R81), its writes to the output regions performed first
(20_memory.md R61): the next answer supplied from outside, else the oracle's (log 17). DESIGN CHOICE, unsafe (log 30):
all writes of a call are performed in the step of its answer, where R61 and 60_exceptions.md R141 say only that they
come before it. -/
def innerDecoderMove (s : State) : State :=
  match s.mp3.idecPort with
  | .idle => s
  | .answered _ => s
  | .pending r =>
    let answer := s.env.idecAnswers.headD (Config.idec s.mp3.idecLog r)
    let s' := writeOutputs r.fmt r.left r.right answer.writes s
    { s' with
      mp3 := { s'.mp3 with
        idecPort := .answered (answer.n, answer.hp)
        idecLog := .answer answer.n answer.hp :: s'.mp3.idecLog }
      env := { s'.env with idecAnswers := s'.env.idecAnswers.tail } }

/-! ### Turns -/

/-- The step of the agent whose turn it is (R141). -/
def agentMove (s : State) : Result :=
  match s.env.turn with
  | .host => hostMove s
  | .vadUnit => vadMove s
  | .mp3Unit => mp3Move s
  | .hostMemory => .next (memoryMove s)
  | .innerVad => .next (innerVadMove s)
  | .innerDecoder => .next (innerDecoderMove s)

/-- The agent to which weak fairness gives a turn at a tick (R142): the agents whose enabled step is always taken, in
rotation. The inner VAD and the inner decoder are not among them, since a port may never answer (93 U12; log 23). -/
def fairAgent (tick : Nat) : Agent :=
  match tick % 4 with
  | 0 => .host
  | 1 => .vadUnit
  | 2 => .mp3Unit
  | _ => .hostMemory

/-- The turns of one tick: any finite number of any agents' turns, then the one that fairness gives (R142; logs 1,
23). -/
def tickTurns (tick : Nat) : List Agent := Config.schedule tick ++ [fairAgent tick]

/-- The next turn is taken: the first one that the schedule names; an empty schedule is filled with the turns of the
next tick (R142). -/
def takeTurn (s : State) : State :=
  match s.env.sched with
  | a :: rest => { s with env := { s.env with turn := a, sched := rest } }
  | [] =>
    { s with
      env := { s.env with
        turn := (tickTurns s.env.tick).headD .host
        sched := (tickTurns s.env.tick).tail
        tick := s.env.tick + 1 } }

/-- The state in which the host's very next step is the issue transaction of the `nbits` bits `w`: the command word
`w[31:0]` written to the offset `w[63:32]` (log 5). -/
def placeIssue (nbits w : Nat) (s : State) : State :=
  { s with
    env := { s.env with
      sched := .host :: s.env.sched
      hostOps :=
        .write (BitVec.ofNat 13 (issueBits nbits w / 2 ^ 32)) .w32 (BitVec.ofNat 32 (issueBits nbits w))
          :: s.env.hostOps } }

end Sys2Proof.Machine
end

