-- ==== Sys2Proof/Machine/Step.lean ====
section
/-! DEFINITION. One step of the machine: the next turn is taken and its agent moves (60_exceptions.md R141, R142). -/

namespace Sys2Proof.Machine

/-- One step: one indivisible step of one agent (60_exceptions.md R142). -/
def step (s : State) : Host.Outcome State Fault Refusal := agentMove (takeTurn s)

/-- `s` with an instruction where the next step fetches it: the host's very next transaction, at the very next turn
(logs 4, 5). -/
def State.withFetchWord (s : State) (nbits w : Nat) : State := placeIssue nbits w s

end Sys2Proof.Machine
end

