-- ==== Sys2Proof/Safety.lean ====
section
/-! DEFINITION. What holds of the block in every state a run reaches: the invariants that the spec states (10_state.md
R41, 20_memory.md R53, 40_mp3_bootstrap.md R88, R89, 41_vad_frame_assembler.md R103, R105, R107, 42_vad_decision.md
R110, 43_vad_session.md R121), the measure by which a command comes to its end, and the runs (60_exceptions.md
R142). -/

namespace Sys2Proof.Machine

/-- A step that goes on: the block has no fatal condition (60_exceptions.md R131). -/
def goesOn (o : Result) : Prop := ∃ t, o = .next t

/-- The state at an agent's turn (60_exceptions.md R141; log 1). -/
def atTurn (a : Agent) (s : State) : State := { s with env := { s.env with turn := a } }

/-- The MP3_DECODE_* command of a format (40_mp3_bootstrap.md R92, R93). -/
def decodeInstr : Fmt → Instr
  | .s16 => .mp3DecodeS16
  | .f32 => .mp3DecodeF32

/-- The VAD unit with its argument registers written by the host (10_state.md R18 to R20). -/
def withVadArgs (a0 a1 a2 : Word) (s : State) : State :=
  { s with vad := { s.vad with arg0 := a0, arg1 := a1, arg2 := a2 } }

/-- The MP3 unit with its argument registers written by the host (10_state.md R30). -/
def withMp3Args (a0 a1 a2 a3 : Word) (s : State) : State :=
  { s with mp3 := { s.mp3 with arg0 := a0, arg1 := a1, arg2 := a2, arg3 := a3 } }

/-- A step's next state, changed by `f`. -/
def mapNext (f : State → State) : Result → Result
  | .next t => .next (f t)
  | .fault r => .fault r
  | .refused r => .refused r

/-- A binary32 pattern's value times `2^149`, an integer, an infinity standing beyond every finite value
(00_scope.md R8). For a NaN it means nothing. -/
def f32Scaled (w : Word) : Int := if f32Sign w then -(f32Magnitude w : Int) else (f32Magnitude w : Int)

/-- The value of a finite binary32 pattern (00_scope.md R8): `(-1)^s * 2^(e - 127) * (1 + f / 2^23)`, and
`(-1)^s * 2^(-126) * f / 2^23` for a subnormal or a zero. -/
def f32Rat (w : Word) : ℚ :=
  (if w.getLsbD 31 then -1 else 1)
    * (if (w.extractLsb' 23 8).toNat = 0 then (w.extractLsb' 0 23).toNat * (2 : ℚ) ^ (-149 : ℤ)
       else (8388608 + (w.extractLsb' 0 23).toNat) * (2 : ℚ) ^ (((w.extractLsb' 23 8).toNat : ℤ) - 150))

/-- The registers of the VAD unit between commands: the session of 10_state.md R41, the results of R21 and 43 R116,
and the histogram total of 42_vad_decision.md R110. -/
structure VadCommitted (u : VadUnit) : Prop where
  unlocked : u.rate = 0 → u.flen = 0 ∧ u.off = 0
  locked : u.rate ≠ 0 → u.rate ∈ Config.rates ∧ u.flen = flenOf u.rate ∧ u.off.toNat < u.flen.toNat
  event : u.result = 0xFFFFFFFF ∨ u.result = 0 ∨ u.result = 1
  rejected : u.rateReject = true → u.result = 0xFFFFFFFF ∧ u.hist = countsRegs countsZero
  total : u.hist.err.toNat + u.hist.sil.toNat + u.hist.voi.toNat + u.hist.noi.toNat < 8388608

/-- The elements `RB[0 : len]` were written since the last reset (41_vad_frame_assembler.md R107). -/
def ringWritten (u : VadUnit) (len : Nat) : Prop := ∀ k < len, (cellGet u.rb k).isSome = true

/-- The ring buffer is in canonical form, holds no element outside its capacity, and holds the overhang
(10_state.md R37, 41_vad_frame_assembler.md R107). -/
structure RingOk (u : VadUnit) : Prop where
  wf : CellsWf u.rb
  inside : ∀ c ∈ u.rb, c.1 < Config.rbCap
  overhang : ringWritten u u.off.toNat

/-- The number of samples that the running VAD_PROCESS has read. -/
def samplesRead (run : VadRun) (w : ProcWork) : Nat := sampleCount run.blenA - w.rem

/-- The iterator between two of its steps: its rate and frame length are the rate check's (43 R115); offset, rest and
pointer keep step (41 R100); the frames sent, the offset and the rest add up to overhang and input (R105); exactly
the addresses `addr_a + 4i` have been read, in increasing order (20_memory.md R53); and every element filled by this
command is the quantized word that was read for it (R101, R105). -/
structure WorkOk (u : VadUnit) (run : VadRun) (w : ProcWork) : Prop where
  checked : rateCheck run.rateA u = some (w.rate, w.flen)
  offset : w.off ≤ w.flen.toNat
  rest : w.rem ≤ sampleCount run.blenA
  pointer : w.p + 4 * w.rem = run.addrA.toNat + 4 * sampleCount run.blenA
  count : countsTotal w.hist * w.flen.toNat + w.off + w.rem = u.off.toNat + sampleCount run.blenA
  written : ringWritten u w.off
  reads : u.memLog.reverse.map Prod.fst
    = (List.range (samplesRead run w)).map (fun i => BitVec.ofNat 32 (run.addrA.toNat + 4 * i))
  filled : ∀ k < w.off, u.off.toNat ≤ countsTotal w.hist * w.flen.toNat + k →
    ∃ e, u.memLog.reverse[countsTotal w.hist * w.flen.toNat + k - u.off.toNat]? = some e
      ∧ cellGet u.rb k = some (quant e.2)

/-- The position of a VAD_PROCESS and its two ports: a port carries a request only while the sequencer waits for it,
and then the request of that position (41 R101, R102; 43 R119). -/
def ProcOk (u : VadUnit) (run : VadRun) : ProcPos → Prop
  | .start => u.memPort = .idle ∧ u.ivadPort = .idle ∧ u.memLog = []
  | .loop w => WorkOk u run w ∧ u.memPort = .idle ∧ u.ivadPort = .idle
  | .memWait w => WorkOk u run w ∧ w.off < w.flen.toNat ∧ 0 < w.rem ∧ u.ivadPort = .idle
      ∧ (u.memPort = .pending (BitVec.ofNat 32 w.p) ∨ ∃ word, u.memPort = .answered word)
  | .ivadWait w => WorkOk u run w ∧ w.off = w.flen.toNat ∧ u.memPort = .idle
      ∧ (u.ivadPort = .pending (frameRequest w u) ∨ ∃ code, u.ivadPort = .answered code)

/-- The running VAD command, if any: accepted arguments and ports in step with the sequencer. -/
def VadRunOk (u : VadUnit) : Prop :=
  match u.run with
  | none => u.memPort = .idle ∧ u.ivadPort = .idle
  | some run =>
    match run.seq with
    | .init _ => u.memPort = .idle ∧ u.ivadPort = .idle
    | .setmode => u.memPort = .idle ∧ u.ivadPort = .idle
    | .process pos => checkProcessArgs run.addrA run.blenA = none ∧ ProcOk u run pos

/-- How a step of the unit comes to the head of the iterator loop (41_vad_frame_assembler.md R99 to R101), with which
working state, and in which state of the machine: at the start of the command, once the rate check has passed; after a
verdict; and with a word that host memory answered, once it is filled (log 3). -/
inductive AtHead (s : State) (run : VadRun) : ProcWork → State → Prop where
  | start (rate flen : Word) (seq : run.seq = .process .start) (checked : rateCheck run.rateA s.vad = some (rate, flen)) :
    AtHead s run
      { rate := rate, flen := flen, off := s.vad.off.toNat, rem := run.blenA.toNat / 4, p := run.addrA.toNat,
        hist := { e := 0, s := 0, v := 0, n := 0 } } s
  | verdict (w : ProcWork) (seq : run.seq = .process (.loop w)) : AtHead s run w s
  | sample (w : ProcWork) (word : Word) (seq : run.seq = .process (.memWait w))
      (answered : s.vad.memPort = .answered word) (inside : w.off < 1440) :
    AtHead s run { w with off := w.off + 1, rem := w.rem - 1, p := w.p + 4 }
      { s with
        vad := { s.vad with
          rb := cellSet s.vad.rb w.off (quant word)
          memPort := .idle
          memLog := (BitVec.ofNat 32 w.p, word) :: s.vad.memLog } }

/-- The precondition of the inner VAD on a request (43_vad_session.md R121). -/
def frameRequestOk (r : IvadReq) : Prop :=
  r.rate ∈ Config.rates ∧ r.flen = flenOf r.rate ∧ r.samples.length = r.flen.toNat

/-- The VAD unit. -/
structure VadOk (u : VadUnit) : Prop where
  committed : VadCommitted u
  ring : RingOk u
  running : VadRunOk u
  requests : ∀ r, IvadEvent.request r ∈ u.ivadLog → frameRequestOk r

/-- The working state before a call of the inner decoder (40_mp3_bootstrap.md R83, R85): before call 1; in `head`
after one call without a header; in `frame` after one or two calls. -/
def BootOk (run : Mp3Run) (b : Boot) : Prop :=
  b = bootStart
  ∨ (run.lenA ≠ 0 ∧ b = { bst := .head, ncalls := 1, hp1 := false, hp2 := false, hp3 := false })
  ∨ (run.lenA ≠ 0 ∧ b = { bst := .frame, ncalls := 1, hp1 := true, hp2 := false, hp3 := false })
  ∨ (run.lenA ≠ 0 ∧ b = { bst := .frame, ncalls := 2, hp1 := false, hp2 := true, hp3 := false })

/-- The working state at `finish` (40_mp3_bootstrap.md R88, R89): one call and `init` on the skip path; one to three
calls and `done` on the bootstrap path. -/
def BootEnd (run : Mp3Run) (b : Boot) : Prop :=
  (run.lenA = 0 → b.bst = .init ∧ b.ncalls = 1) ∧ (run.lenA ≠ 0 → b.bst = .done ∧ 1 ≤ b.ncalls ∧ b.ncalls ≤ 3)

/-- The position of an MP3_DECODE_* and its port. -/
def DecOk (u : Mp3Unit) (run : Mp3Run) (fmt : Fmt) : DecPos → Prop
  | .call b => BootOk run b ∧ u.idecPort = .idle
  | .wait b => BootOk run b
      ∧ (u.idecPort = .pending (decodeRequest fmt run b) ∨ ∃ a, u.idecPort = .answered a)
  | .finish b _ => BootEnd run b ∧ u.idecPort = .idle

/-- The running MP3 command, if any. -/
def Mp3RunOk (u : Mp3Unit) : Prop :=
  match u.run with
  | none => u.idecPort = .idle
  | some run =>
    match run.seq with
    | .reset _ => u.idecPort = .idle
    | .decode fmt pos =>
      checkDecodeArgs fmt run.inA run.lenA run.leftA run.rightA = none ∧ DecOk u run fmt pos

/-- The result registers of the MP3 unit between commands (40_mp3_bootstrap.md R87, R89, R94). -/
structure Mp3Committed (u : Mp3Unit) : Prop where
  samples : u.samples = if 0 < u.n.toInt then u.n else 0
  error : u.error = decide (u.n.toInt < 0)
  needMore : u.needMore = (decide (u.n.toInt = 0) && decide (u.trace.endState = .done))
  skipped : u.trace.skip = true → u.trace.endState = .init
  walked : u.trace.skip = false → u.trace.endState = .done ∨ u.trace = traceZero

/-- The MP3 unit. -/
structure Mp3Ok (u : Mp3Unit) : Prop where
  committed : Mp3Committed u
  running : Mp3RunOk u
  requests : ∀ r, IdecEvent.request r ∈ u.idecLog → checkDecodeArgs r.fmt r.inPtr r.inLen r.left r.right = none

/-- What every step of the machine keeps. -/
structure State.Inv (s : State) : Prop where
  mem : Memory.wf s.mem
  race : CellsWf s.race
  stale : CellsWf s.stale
  vad : VadOk s.vad
  mp3 : Mp3Ok s.mp3

/-! ### How far a command is from its end -/

/-- The steps that a frame iterator may still take, at most (41_vad_frame_assembler.md R103). -/
def workMeasure (w : ProcWork) : Nat := 4 * (2 * w.rem + w.off)

/-- The steps that the running VAD command and its ports may still take, at most. -/
def vadMeasure (u : VadUnit) : Nat :=
  match u.run with
  | none => 0
  | some run =>
    match run.seq with
    | .init false => 2
    | .init true => 1
    | .setmode => 1
    | .process .start => 4 * (2 * sampleCount run.blenA + u.off.toNat) + 4
    | .process (.loop w) => workMeasure w + 3
    | .process (.memWait w) => workMeasure w + (match u.memPort with | .pending _ => 2 | _ => 1)
    | .process (.ivadWait w) => workMeasure w + (match u.ivadPort with | .pending _ => 2 | _ => 1)

/-- The agent whose step the VAD unit's command needs next (60_exceptions.md R141). -/
def vadMover (u : VadUnit) : Agent :=
  match u.memPort, u.ivadPort with
  | .pending _, _ => .hostMemory
  | _, .pending _ => .innerVad
  | _, _ => .vadUnit

/-- The calls that a bootstrap state may still make, at most (40_mp3_bootstrap.md R83). -/
def bstCalls : Bst → Nat
  | .init => 3
  | .head => 2
  | .frame => 1
  | .done => 0

/-- The steps that the running MP3 command and its port may still take, at most. -/
def mp3Measure (u : Mp3Unit) : Nat :=
  match u.run with
  | none => 0
  | some run =>
    match run.seq with
    | .reset false => 2
    | .reset true => 1
    | .decode _ (.call b) => 3 * bstCalls b.bst + 1
    | .decode _ (.wait b) => (match u.idecPort with | .pending _ => 3 * bstCalls b.bst | _ => 3 * bstCalls b.bst - 1)
    | .decode _ (.finish _ _) => 1

/-- The agent whose step the MP3 unit's command needs next (60_exceptions.md R141). -/
def mp3Mover (u : Mp3Unit) : Agent :=
  match u.idecPort with
  | .pending _ => .innerDecoder
  | _ => .mp3Unit

/-- An endless run of the machine, one step of one agent after another (60_exceptions.md R142). -/
def IsRun (r : Nat → State) : Prop := ∀ n, step (r n) = .next (r (n + 1))

/-- A request of the VAD unit waits for its answer on the memory port or the inner-VAD port. -/
def vadWaits (u : VadUnit) : Prop := (∃ a, u.memPort = .pending a) ∨ ∃ q, u.ivadPort = .pending q

/-- A request of the MP3 unit waits for its answer on the inner-decoder port. -/
def mp3Waits (u : Mp3Unit) : Prop := ∃ q, u.idecPort = .pending q

end Sys2Proof.Machine
end

