-- ==== Sys2Proof/Certificates/Slice0/Obligations.lean ====
section
/-! DEFINITION. The statements for the provers, from the numbered rules of spec/. -/

open Sys2Proof Sys2Proof.Machine

/-! ### Encoding -/

/-- 30_encoding.md R70, R71: at every offset and for every word, the decoder reads a command exactly where its
command register is and from its word alone; encoding and decoding agree in both directions. -/
def Obligations.IssueTransactionsDecodeExactly : Prop :=
  (∀ (u : UnitId) (w : Word) (i : Instr), decodeCommand u w = .ok i ↔ i.unit = u ∧ w = encode i)
  ∧ (∀ (offset : Nat) (w : Word) (i : Instr),
      decodeIssue offset w = some i ↔ offset = i.unit.cmdReg.offset ∧ w = encode i)

/-- 30_encoding.md R75: an illegal word written to a command register, at the offset of 10_state.md R11, is rejected
while the unit is idle, with cause 1 or cause 2 and nothing else changed (60_exceptions.md R127). -/
def Obligations.IllegalWordsAreRejectedWithTheirCause : Prop :=
  ∀ (u : UnitId) (offset : BitVec 13) (w : Word) (s : State), busy u s = false →
    offset = (match u with | .vad => 0x000 | .mp3 => 0x040) →
    (opField w ≠ 1 ∧ opField w ≠ 2 ∧ opField w ≠ 3 →
      commandWrite u w s = .next (reject u .unknownOpcode s)
      ∧ windowWrite offset .w32 w s = .next (reject u .unknownOpcode s))
    ∧ ((opField w = 1 ∨ opField w = 2 ∨ opField w = 3) → rsvField w ≠ 0 →
      commandWrite u w s = .next (reject u .reservedBits s)
      ∧ windowWrite offset .w32 w s = .next (reject u .reservedBits s))
    ∧ causeCode .unknownOpcode = 1 ∧ causeCode .reservedBits = 2

/-- Words written out from 30_encoding.md R70 and R75 decode as those rules say. -/
def Obligations.SampleWordsDecodeAsListed : Prop :=
  decodeCommand .vad 0x00000001 = .ok .vadInit ∧ decodeCommand .vad 0x00000002 = .ok .vadSetmode
  ∧ decodeCommand .vad 0x00000003 = .ok .vadProcess ∧ decodeCommand .mp3 0x00000001 = .ok .mp3DecodeS16
  ∧ decodeCommand .mp3 0x00000002 = .ok .mp3DecodeF32 ∧ decodeCommand .mp3 0x00000003 = .ok .mp3Reset
  ∧ decodeCommand .vad 0x00000000 = .error .unknownOpcode ∧ decodeCommand .vad 0x00000104 = .error .unknownOpcode
  ∧ decodeCommand .mp3 0x80000001 = .error .reservedBits

/-- 10_state.md R11, R36: an offset holds a register exactly where the map puts it. -/
def Obligations.RegisterMapIsExact : Prop :=
  ∀ (offset : Nat) (r : Reg), regAt offset = some r ↔ r.wellFormed = true ∧ r.offset = offset

/-! ### A step runs the decoded command -/

/-- 30_encoding.md R71, R72: at the host's turn, an aligned 32-bit write of a legal word to a command register is a
step of the word's command, the transaction taken from the host's list; and whatever `decodeTableWord` reads is what
the very next step after `withFetchWord` runs. The host's list and turn are the model's own (logs 1, 2, 4, 5). -/
def Obligations.StepRunsTheIssuedCommand : Prop :=
  (∀ (s : State) (offset : BitVec 13) (w : Word) (i : Instr) (ops : List HostOp),
    (takeTurn s).env.turn = .host → s.env.hostOps = .write offset .w32 w :: ops →
    decodeIssue offset.toNat w = some i → step s = exec i (popHostOp (takeTurn s)))
  ∧ (∀ (s : State) (nbits w : Nat) (i : Instr), decodeTableWord nbits w = some i →
    step (s.withFetchWord nbits w) = exec i (atTurn .host s))
  ∧ (∀ i : Instr, decodeTableWord 64 (encodeIssue i) = some i)

/-- 10_state.md R38, R43: at a unit's turn, the step is the next step of the command it has latched; an idle unit does
nothing (60_exceptions.md R140). That a command's meaning has a side for each turn is the model's choice (log 2). -/
def Obligations.StepRunsTheLatchedCommand : Prop :=
  ∀ s : State,
    ((takeTurn s).env.turn = .vadUnit → ∀ run, s.vad.run = some run →
      step s = exec (vadCommand run) (takeTurn s))
    ∧ ((takeTurn s).env.turn = .mp3Unit → ∀ run, s.mp3.run = some run →
      step s = exec (mp3Command run) (takeTurn s))
    ∧ ((takeTurn s).env.turn = .vadUnit → s.vad.run = none → step s = .next (takeTurn s))
    ∧ ((takeTurn s).env.turn = .mp3Unit → s.mp3.run = none → step s = .next (takeTurn s))

/-! ### Acceptance, overrun and rejection -/

/-- 60_exceptions.md R128: an aligned 32-bit write of any word to a command register, at its offset of 10_state.md R11,
while its unit is BUSY sets OVERRUN and changes nothing else. -/
def Obligations.BusyCommandWriteOnlySetsOverrun : Prop :=
  ∀ (w : Word) (s : State), s.env.turn = .host →
    (vadBusy s.vad = true →
      commandWrite .vad w s = .next { s with vad := { s.vad with overrun := true } }
      ∧ windowWrite 0x000 .w32 w s = .next { s with vad := { s.vad with overrun := true } })
    ∧ (mp3Busy s.mp3 = true →
      commandWrite .mp3 w s = .next { s with mp3 := { s.mp3 with overrun := true } }
      ∧ windowWrite 0x040 .w32 w s = .next { s with mp3 := { s.mp3 with overrun := true } })

/-- 60_exceptions.md R127: a rejection sets CMD_ERR and ERR_CAUSE, replacing an earlier cause, and nothing else; the
IRQ output does not change. -/
def Obligations.RejectionChangesOnlyTheErrorFields : Prop :=
  ∀ (cause : Cause) (s : State),
    reject .vad cause s = { s with vad := { s.vad with cmdErr := true, errCause := cause } }
    ∧ reject .mp3 cause s = { s with mp3 := { s.mp3 with cmdErr := true, errCause := cause } }
    ∧ (∀ u, irqLine (reject u cause s) = irqLine s ∧ busy u (reject u cause s) = busy u s)

/-- 20_memory.md R51, R52: what an idle VAD unit does with a VAD_PROCESS, by its address and length: MISALIGNED before
RANGE_WRAP (60_exceptions.md R129), neither checked when the count is 0. -/
def Obligations.VadProcessChecksAlignmentThenRange : Prop :=
  ∀ s : State, s.env.turn = .host → s.vad.run = none →
    (0 < s.vad.arg2.toNat / 4 → s.vad.arg1.toNat % 4 ≠ 0 →
      exec .vadProcess s = .next (reject .vad .misaligned s))
    ∧ (0 < s.vad.arg2.toNat / 4 → s.vad.arg1.toNat % 4 = 0 →
      2 ^ 32 < s.vad.arg1.toNat + 4 * (s.vad.arg2.toNat / 4) →
      exec .vadProcess s = .next (reject .vad .rangeWrap s))
    ∧ ((s.vad.arg2.toNat / 4 = 0
        ∨ (s.vad.arg1.toNat % 4 = 0 ∧ s.vad.arg1.toNat + 4 * (s.vad.arg2.toNat / 4) ≤ 2 ^ 32)) →
      exec .vadProcess s = .next (acceptVad (.process .start) s))

/-- 40_mp3_bootstrap.md R79: what an idle MP3 unit does with an MP3_DECODE_*, by its four arguments, with regions of
1152 elements of 2 or 4 bytes. -/
def Obligations.Mp3DecodeChecksRangesThenOverlap : Prop :=
  ∀ (fmt : Fmt) (s : State) (inp len l r size : Nat), s.env.turn = .host → s.mp3.run = none →
    inp = s.mp3.arg0.toNat → len = s.mp3.arg1.toNat → l = s.mp3.arg2.toNat → r = s.mp3.arg3.toNat →
    size = (match fmt with | .s16 => 1152 * 2 | .f32 => 1152 * 4) →
    if (0 < len ∧ 2 ^ 32 < inp + len) ∨ 2 ^ 32 < l + size ∨ 2 ^ 32 < r + size then
      exec (decodeInstr fmt) s = .next (reject .mp3 .rangeWrap s)
    else if l < r + size ∧ r < l + size then
      exec (decodeInstr fmt) s = .next (reject .mp3 .bufferOverlap s)
    else exec (decodeInstr fmt) s = .next (acceptMp3 (.decode fmt (.call bootStart)) s)

/-- 30_encoding.md R72, R73: the commands without an argument check are accepted whenever their unit is idle; and what
acceptance does, for every command: the arguments are latched, BUSY is set, DONE is cleared, and nothing else of
the block changes. `race` and `memLog` are the model's own records (logs 12, 27). -/
def Obligations.IdleUnitsAcceptAndLatch : Prop :=
  (∀ s : State, s.env.turn = .host → s.vad.run = none →
    exec .vadInit s = .next (acceptVad (.init false) s) ∧ exec .vadSetmode s = .next (acceptVad .setmode s))
  ∧ (∀ s : State, s.env.turn = .host → s.mp3.run = none →
    exec .mp3Reset s = .next (acceptMp3 (.reset false) s))
  ∧ (∀ (q : VadSeq) (s : State),
    acceptVad q s = { s with
      vad := { s.vad with
        done := false, memLog := [],
        run := some { rateA := s.vad.arg0, addrA := s.vad.arg1, blenA := s.vad.arg2, seq := q } }
      race := [] }
    ∧ vadBusy (acceptVad q s).vad = true)
  ∧ (∀ (q : Mp3Seq) (s : State),
    acceptMp3 q s = { s with
      mp3 := { s.mp3 with
        done := false,
        run := some
          { inA := s.mp3.arg0, lenA := s.mp3.arg1, leftA := s.mp3.arg2, rightA := s.mp3.arg3, seq := q } } }
    ∧ mp3Busy (acceptMp3 q s).mp3 = true)

/-! ### VAD_INIT, VAD_SETMODE -/

/-- 43_vad_session.md R122: VAD_INIT issued to an idle unit and run to its end: one reset pulse on the inner-VAD port,
the session and the histogram at 0, RESULT 1; RB, the argument registers and every other register unchanged. `race` and
`memLog` are the model's own records, emptied at acceptance (logs 12, 27); its two turns are the model's (log 2). -/
def Obligations.VadInitRunsToItsEnd : Prop :=
  ∀ s : State, s.env.turn = .host → s.vad.run = none →
    ∃ s1 s2 s3, exec .vadInit s = .next s1
      ∧ exec .vadInit (atTurn .vadUnit s1) = .next s2
      ∧ exec .vadInit s2 = .next s3
      ∧ s3 = { s with
          vad := { s.vad with
            rate := 0, flen := 0, off := 0, mode := 0, hist := { err := 0, sil := 0, voi := 0, noi := 0 },
            result := 1, rateReject := false, done := true, memLog := [],
            ivadLog := .reset :: s.vad.ivadLog }
          race := []
          env := { s.env with turn := .vadUnit } }
      ∧ vadBusy s2.vad = true

/-- 43_vad_session.md R123: VAD_SETMODE issued to an idle unit and run to its end: a mode of 0 to 3, compared as a
whole u32, is set with RESULT 1; any other leaves the mode with RESULT 0; RATE_REJECT 0, and no other register changes.
`race` and `memLog` are the model's own records, emptied at acceptance (logs 12, 27). -/
def Obligations.VadSetmodeRunsToItsEnd : Prop :=
  ∀ s : State, s.env.turn = .host → s.vad.run = none →
    ∃ s1 s2, exec .vadSetmode s = .next s1
      ∧ exec .vadSetmode (atTurn .vadUnit s1) = .next s2
      ∧ s2 = { s with
          vad := { s.vad with
            mode := if s.vad.arg0.toNat ≤ 3 then s.vad.arg0.setWidth 2 else s.vad.mode
            result := if s.vad.arg0.toNat ≤ 3 then 1 else 0
            rateReject := false, done := true, memLog := [] }
          race := []
          env := { s.env with turn := .vadUnit } }
      ∧ (s.vad.arg0.toNat ≤ 3 → s2.vad.mode.toNat = s.vad.arg0.toNat)

/-! ### VAD_PROCESS -/

/-- 43_vad_session.md R114, R115: the rate check, by the locked rate and the operand, and the frame length of each
supported rate. -/
def Obligations.RateCheckFollowsTheLock : Prop :=
  ∀ (rateA : Word) (u : VadUnit),
    (u.rate = 0 → (rateA = 8000 ∨ rateA = 16000 ∨ rateA = 32000 ∨ rateA = 48000) →
      rateCheck rateA u = some (rateA, rateA / 1000 * 30))
    ∧ (u.rate = 0 → ¬(rateA = 8000 ∨ rateA = 16000 ∨ rateA = 32000 ∨ rateA = 48000) → rateCheck rateA u = none)
    ∧ (u.rate ≠ 0 → rateA ≠ u.rate → rateCheck rateA u = none)
    ∧ (u.rate ≠ 0 → rateA = u.rate → rateCheck rateA u = some (u.rate, u.flen))
    ∧ flenOf 8000 = 240 ∧ flenOf 16000 = 480 ∧ flenOf 32000 = 960 ∧ flenOf 48000 = 1440

/-- 43_vad_session.md R116: a VAD_PROCESS whose rate check fails completes in its unit's first step: RESULT -1, the
histogram at 0, RATE_REJECT 1, no port request, and nothing else changed. -/
def Obligations.RateFailureCompletesWithoutProcessing : Prop :=
  ∀ (s : State) (run : VadRun), s.env.turn = .vadUnit → s.vad.run = some run → run.seq = .process .start →
    rateCheck run.rateA s.vad = none →
    exec .vadProcess s = .next { s with
      vad := { s.vad with
        result := 0xFFFFFFFF, hist := { err := 0, sil := 0, voi := 0, noi := 0 }, rateReject := true,
        run := none, done := true } }

/-- 41_vad_frame_assembler.md R99, R100, R101: with room in the frame and input left, the unit's step asks host memory
for the next sample and changes nothing else; at the start of the command the iterator begins with the overhang, and a
word that has been answered is filled first, in the same step (`AtHead`; logs 3, 27). -/
def Obligations.IteratorReadsTheNextSample : Prop :=
  ∀ (s u : State) (run : VadRun) (w : ProcWork), s.env.turn = .vadUnit → s.vad.run = some run →
    AtHead s run w u → w.off < w.flen.toNat → 0 < w.rem → w.p % 4 = 0 → w.p + 4 ≤ 2 ^ 32 →
    exec .vadProcess s = .next { u with
      vad := { u.vad with
        run := some { run with seq := .process (.memWait w) }, memPort := .pending (BitVec.ofNat 32 w.p) } }

/-- 41_vad_frame_assembler.md R101: the word that a MemRead returned goes, quantized, into `RB[off]`, every other
element of RB reads as before, and the iterator goes on, moved by one sample, in the same step. That the word is taken in
the step of the unit's next request or `complete`, one sample a pass, is the model's reading of R141 and R100 (logs 3,
6), and `memLog` the model's own record (log 27). -/
def Obligations.SampleGoesQuantizedIntoTheRing : Prop :=
  ∀ (s : State) (run : VadRun) (w w' : ProcWork) (word : Word), s.env.turn = .vadUnit → s.vad.run = some run →
    run.seq = .process (.memWait w) → s.vad.memPort = .answered word → w.off < 1440 →
    w' = { w with off := w.off + 1, rem := w.rem - 1, p := w.p + 4 } →
    (0 < w'.rem → w'.p % 4 = 0 ∧ w'.p + 4 ≤ 2 ^ 32) →
    ∃ t u, exec .vadProcess s = .next t ∧ iterate w' u = .next t
      ∧ u = { s with
          vad := { s.vad with
            rb := t.vad.rb, memPort := .idle, memLog := (BitVec.ofNat 32 w.p, word) :: s.vad.memLog } }
      ∧ ringRead t.vad w.off = quant word
      ∧ ∀ k, k ≠ w.off → ringRead t.vad k = ringRead s.vad k

/-- 41_vad_frame_assembler.md R102, R104: a full frame is sent before anything else, even without input left: the
request carries the mode, the rate, the frame length and `RB[0 : flen]`. A word that has been answered is filled first,
in the same step (`AtHead`; logs 3, 27). -/
def Obligations.FullFrameIsSentFirst : Prop :=
  ∀ (s u : State) (run : VadRun) (w : ProcWork), s.env.turn = .vadUnit → s.vad.run = some run →
    AtHead s run w u → w.flen.toNat ≤ w.off →
    ∃ r : IvadReq, exec .vadProcess s = .next { u with
        vad := { u.vad with
          run := some { run with seq := .process (.ivadWait w) }, ivadPort := .pending r,
          ivadLog := .request r :: u.vad.ivadLog } }
      ∧ r.mode = s.vad.mode ∧ r.rate = w.rate ∧ r.flen = w.flen ∧ r.samples.length = w.flen.toNat
      ∧ ∀ k, k < w.flen.toNat → r.samples[k]? = some (ringRead u.vad k)

/-- 43_vad_session.md R119, R120; 41_vad_frame_assembler.md R100, R102: the inner VAD answers a waiting request with one
code, on the port and in the port's history, and changes nothing else, but that an answer supplied from outside is used
up (log 17); and then the unit counts the verdict in its bucket, an error like any other, the offset is back at 0, and
the iterator goes on. -/
def Obligations.VerdictIsCountedAndTheLoopGoesOn : Prop :=
  (∀ (s : State) (r : IvadReq), s.vad.ivadPort = .pending r →
    ∃ code, innerVadMove s = { s with
        vad := { s.vad with ivadPort := .answered code, ivadLog := .answer code :: s.vad.ivadLog }
        env := { s.env with ivadAnswers := s.env.ivadAnswers.tail } }
      ∧ (∀ c rest, s.env.ivadAnswers = c :: rest → code = c)
      ∧ (s.env.ivadAnswers = [] → code = Config.ivad s.vad.ivadLog r))
  ∧ (∀ s : State, (∀ r, s.vad.ivadPort ≠ .pending r) → innerVadMove s = s)
  ∧ ∀ (s : State) (run : VadRun) (w : ProcWork) (code : BitVec 2), s.env.turn = .vadUnit →
    s.vad.run = some run → run.seq = .process (.ivadWait w) → s.vad.ivadPort = .answered code →
    ∃ h : Counts, exec .vadProcess s = .next { s with
        vad := { s.vad with
          ivadPort := .idle, run := some { run with seq := .process (.loop { w with off := 0, hist := h }) } } }
      ∧ (code = 0b00 → h = { w.hist with s := w.hist.s + 1 })
      ∧ (code = 0b01 → h = { w.hist with v := w.hist.v + 1 })
      ∧ (code = 0b10 → h = { w.hist with n := w.hist.n + 1 })
      ∧ (code = 0b11 → h = { w.hist with e := w.hist.e + 1 })

/-- 43_vad_session.md R124, 41_vad_frame_assembler.md R105, 42_vad_decision.md R110: at the end of its input a
VAD_PROCESS completes: the rate is locked, VAD_OFF is the remainder and the histogram's total the quotient of
overhang and input by the frame length, no counter has overflowed, and RESULT is the decision. A word that has been
answered is filled first, in the same step (`AtHead`; logs 3, 27). -/
def Obligations.VadProcessCompletesWithItsFrames : Prop :=
  ∀ (s u : State) (run : VadRun) (w : ProcWork), s.Inv → s.env.turn = .vadUnit → s.vad.run = some run →
    AtHead s run w u → w.off < w.flen.toNat → w.rem = 0 →
    ∃ t, exec .vadProcess s = .next t
      ∧ t = { u with
          vad := { u.vad with
            rate := run.rateA, flen := run.rateA / 1000 * 30, off := t.vad.off, hist := t.vad.hist,
            result := t.vad.result, rateReject := false, run := none, done := true } }
      ∧ (run.rateA = 8000 ∨ run.rateA = 16000 ∨ run.rateA = 32000 ∨ run.rateA = 48000)
      ∧ t.vad.off.toNat = (s.vad.off.toNat + run.blenA.toNat / 4) % t.vad.flen.toNat
      ∧ t.vad.hist.err.toNat + t.vad.hist.sil.toNat + t.vad.hist.voi.toNat + t.vad.hist.noi.toNat
          = (s.vad.off.toNat + run.blenA.toNat / 4) / t.vad.flen.toNat
      ∧ t.vad.hist.err.toNat = w.hist.e ∧ t.vad.hist.sil.toNat = w.hist.s
      ∧ t.vad.hist.voi.toNat = w.hist.v ∧ t.vad.hist.noi.toNat = w.hist.n
      ∧ t.vad.result = eventBits (decideEvent w.hist)

/-- 43_vad_session.md R117, R124: a VAD_PROCESS of fewer than 4 bytes that passes the rate check completes in its
unit's first step: it sends no frame, reports SILENCE, and locks the rate. -/
def Obligations.EmptyVadProcessLocksTheRate : Prop :=
  ∀ (s : State) (run : VadRun), s.Inv → s.env.turn = .vadUnit → s.vad.run = some run →
    run.seq = .process .start → run.blenA.toNat < 4 → (rateCheck run.rateA s.vad).isSome = true →
    exec .vadProcess s = .next { s with
      vad := { s.vad with
        rate := run.rateA, flen := run.rateA / 1000 * 30, hist := { err := 0, sil := 0, voi := 0, noi := 0 },
        result := 0, rateReject := false, run := none, done := true } }

/-- 20_memory.md R53, R47, R51: the MemRead that a VAD_PROCESS asks for is the one of the next sample: 4-byte aligned,
inside the input, at 4 times the number of reads so far past its start, the one whose word this step takes among them
(log 3). `memLog`, which counts the reads, is the model's own record (log 27). -/
def Obligations.MemReadsWalkTheInputInOrder : Prop :=
  ∀ (s t : State) (run : VadRun) (a : Word), s.Inv → s.env.turn = .vadUnit → s.vad.run = some run →
    exec .vadProcess s = .next t → (∀ b, s.vad.memPort ≠ .pending b) → t.vad.memPort = .pending a →
    a.toNat = run.addrA.toNat + 4 * t.vad.memLog.length
    ∧ t.vad.memLog.length < run.blenA.toNat / 4
    ∧ a.toNat % 4 = 0 ∧ a.toNat + 4 ≤ 2 ^ 32
    ∧ (s.vad.memPort = .idle → t.vad.memLog = s.vad.memLog)
    ∧ (∀ word, s.vad.memPort = .answered word → ∃ p, t.vad.memLog = (p, word) :: s.vad.memLog)

/-- 41_vad_frame_assembler.md R105: the frame that a VAD_PROCESS sends holds, at every position that this command's
input reaches, the quantized word read for that position of the stream: frame `j` begins at stream position
`j * flen`, of which the first `VAD_OFF` are the overhang. `memLog` is the model's own record (log 27). -/
def Obligations.FramesHoldTheQuantizedStream : Prop :=
  ∀ (s : State) (run : VadRun) (w : ProcWork) (r : IvadReq), s.Inv → s.vad.run = some run →
    run.seq = .process (.ivadWait w) → s.vad.ivadPort = .pending r →
    r.samples.length = w.flen.toNat
    ∧ ∀ k, k < w.flen.toNat → s.vad.off.toNat ≤ countsTotal w.hist * w.flen.toNat + k →
      ∃ e, s.vad.memLog.reverse[countsTotal w.hist * w.flen.toNat + k - s.vad.off.toNat]? = some e
        ∧ r.samples[k]? = some (quant e.2)

/-! ### The quantizer and the decision -/

/-- 41_vad_frame_assembler.md R96: QUANT on every pattern, over the rationals: NaN gives 0, an infinity is clipped,
and a finite value is multiplied by 32768, rounded half away from zero and clipped to ±32767. -/
def Obligations.QuantRoundsTheExactProduct : Prop :=
  ∀ w : Word,
    ((w.extractLsb' 23 8).toNat = 255 → (w.extractLsb' 0 23).toNat ≠ 0 → quant w = 0)
    ∧ ((w.extractLsb' 23 8).toNat = 255 → (w.extractLsb' 0 23).toNat = 0 →
        (quant w).toInt = if w.getLsbD 31 then -32767 else 32767)
    ∧ ((w.extractLsb' 23 8).toNat ≠ 255 →
        (quant w).toInt
          = min (max ((if f32Rat w * 32768 < 0 then -1 else 1) * ⌊|f32Rat w * 32768| + 1 / 2⌋) (-32767)) 32767)

/-- 41_vad_frame_assembler.md R98: QUANT's range, oddness, monotonicity, zero set and clip sets, its ties, and the
rule's four examples. `f32Scaled` is the value times 2^149. -/
def Obligations.QuantProperties : Prop :=
  (∀ w, -32767 ≤ (quant w).toInt ∧ (quant w).toInt ≤ 32767)
  ∧ (∀ w, f32IsNaN w = false → (quant (w ^^^ 0x80000000)).toInt = -(quant w).toInt)
  ∧ (∀ v w, f32IsNaN v = false → f32IsNaN w = false → f32Scaled v ≤ f32Scaled w →
      (quant v).toInt ≤ (quant w).toInt)
  ∧ (∀ w, quant w = 0 ↔ (f32IsNaN w = true ∨ |f32Scaled w| < 2 ^ 133))
  ∧ (∀ w, f32IsNaN w = false → ((quant w).toInt = 32767 ↔ 65533 * 2 ^ 133 ≤ f32Scaled w))
  ∧ (∀ w, f32IsNaN w = false → ((quant w).toInt = -32767 ↔ f32Scaled w ≤ -(65533 * 2 ^ 133)))
  ∧ (quant 0x37800000).toInt = 1 ∧ (quant 0x38A00000).toInt = 3
  ∧ (quant 0x3F000000).toInt = 16384 ∧ (quant 0xBE800000).toInt = -8192
  ∧ (quant 0x3F800000).toInt = 32767 ∧ (quant 0xBF800000).toInt = -32767

/-- 42_vad_decision.md R109, R111, R113: the event by the exact 80 % test over the rationals; it is never 2; and
without an error the least voice count that gives VOICE is the ceiling of `4t/5`. -/
def Obligations.DecisionIsTheExactMajority : Prop :=
  ∀ h : Counts,
    (h.e + h.s + h.v + h.n = 0 → decideEvent h = 0)
    ∧ (0 < h.e → decideEvent h = -1)
    ∧ (h.e = 0 → 0 < h.s + h.v + h.n →
        (decideEvent h = 1 ↔ (4 / 5 : ℚ) ≤ (h.v : ℚ) / ((h.s + h.v + h.n : ℕ) : ℚ))
        ∧ (decideEvent h = 1 ↔ ⌈(4 * (h.s + h.v + h.n : ℕ) / 5 : ℚ)⌉ ≤ (h.v : ℤ))
        ∧ (decideEvent h = 0 ∨ decideEvent h = 1))
    ∧ (h.v = 0 → h.e = 0 → decideEvent h = 0)
    ∧ decideEvent h ≠ 2

/-! ### MP3_DECODE_* and MP3_RESET -/

/-- 40_mp3_bootstrap.md R84, R85, R86: the unit's next call: the first call of the bootstrap path feeds the input, and
every other call is a flush call with address and length 0 and the command's own format and outputs. -/
def Obligations.DecoderCallsFeedOnceThenFlush : Prop :=
  ∀ (fmt : Fmt) (s : State) (run : Mp3Run) (b : Boot), s.env.turn = .mp3Unit → s.mp3.run = some run →
    run.seq = .decode fmt (.call b) →
    ∃ r : IdecReq, exec (decodeInstr fmt) s = .next { s with
        mp3 := { s.mp3 with
          run := some { run with seq := .decode fmt (.wait b) }, idecPort := .pending r,
          idecLog := .request r :: s.mp3.idecLog } }
      ∧ r.fmt = fmt ∧ r.left = run.leftA ∧ r.right = run.rightA
      ∧ (b.ncalls = 0 → 0 < run.lenA.toNat → r.inPtr = run.inA ∧ r.inLen = run.lenA)
      ∧ (0 < b.ncalls ∨ run.lenA.toNat = 0 → r.inPtr = 0 ∧ r.inLen = 0)

/-- 40_mp3_bootstrap.md R83: the transition function, row by row. -/
def Obligations.BootstrapTransitionsFollowTheTable : Prop :=
  ∀ (n : Word) (hp : Bool),
    (0 < n.toInt → bootNext .init n hp = .done)
    ∧ (n.toInt = 0 → hp = false → bootNext .init n hp = .head)
    ∧ (n.toInt = 0 → hp = true → bootNext .init n hp = .frame)
    ∧ (n.toInt < 0 → bootNext .init n hp = .done)
    ∧ (0 < n.toInt → bootNext .head n hp = .done)
    ∧ (hp = false → bootNext .head n hp = .done)
    ∧ (n.toInt = 0 → hp = true → bootNext .head n hp = .frame)
    ∧ (n.toInt < 0 → hp = true → bootNext .head n hp = .done)
    ∧ bootNext .frame n hp = .done
    ∧ (∀ b, bootNext b n hp ≠ .init)
    ∧ (∀ b, b ≠ .done → (bstCode b).toNat < (bstCode (bootNext b n hp)).toNat)

/-- 40_mp3_bootstrap.md R85, R86: an answer taken: the call is counted, its `hp` is kept, BST moves by `T` on the
bootstrap path and stays on the skip path, and the unit goes on to another call or to `finish`. -/
def Obligations.DecoderAnswerMovesTheBootstrap : Prop :=
  ∀ (fmt : Fmt) (s : State) (run : Mp3Run) (b : Boot) (n : Word) (hp : Bool), s.env.turn = .mp3Unit →
    s.mp3.run = some run → run.seq = .decode fmt (.wait b) → s.mp3.idecPort = .answered (n, hp) →
    ∃ (b' : Boot) (pos : DecPos), exec (decodeInstr fmt) s = .next { s with
        mp3 := { s.mp3 with idecPort := .idle, run := some { run with seq := .decode fmt pos } } }
      ∧ b'.ncalls = b.ncalls + 1
      ∧ (b.ncalls = 0 → b'.hp1 = hp ∧ b'.hp2 = b.hp2 ∧ b'.hp3 = b.hp3)
      ∧ (b.ncalls = 1 → b'.hp1 = b.hp1 ∧ b'.hp2 = hp ∧ b'.hp3 = b.hp3)
      ∧ (b.ncalls = 2 → b'.hp1 = b.hp1 ∧ b'.hp2 = b.hp2 ∧ b'.hp3 = hp)
      ∧ (run.lenA.toNat = 0 → b'.bst = b.bst ∧ pos = .finish b' n)
      ∧ (0 < run.lenA.toNat → b'.bst = bootNext b.bst n hp
          ∧ (b'.bst = .done → pos = .finish b' n) ∧ (b'.bst ≠ .done → pos = .call b'))

/-- 40_mp3_bootstrap.md R87, R92, R93: at `finish` an MP3_DECODE_* completes with its results, and nothing else of
the block changes. -/
def Obligations.DecodeCompletesWithItsResults : Prop :=
  ∀ (fmt : Fmt) (s : State) (run : Mp3Run) (b : Boot) (n : Word), s.env.turn = .mp3Unit →
    s.mp3.run = some run → run.seq = .decode fmt (.finish b n) →
    ∃ t, exec (decodeInstr fmt) s = .next t
      ∧ t = { s with
          mp3 := { s.mp3 with
            n := n, samples := t.mp3.samples, error := t.mp3.error, needMore := t.mp3.needMore,
            trace := t.mp3.trace, run := none, done := true } }
      ∧ t.mp3.samples = (if 0 < n.toInt then n else 0)
      ∧ (t.mp3.error = true ↔ n.toInt < 0)
      ∧ (t.mp3.needMore = true ↔ n.toInt = 0 ∧ b.bst = .done)
      ∧ t.mp3.trace =
          { ncalls := BitVec.ofNat 2 b.ncalls, skip := decide (run.lenA = 0), hp1 := b.hp1, hp2 := b.hp2,
            hp3 := b.hp3, endState := b.bst }

/-- 40_mp3_bootstrap.md R88, R89: at `finish`, one call was made on the skip path and one to three on the bootstrap
path, which ends in `done`; there exactly one of ERROR, NEED_MORE and MP3_SAMPLES > 0 holds after the command, and on
the skip path NEED_MORE is 0, and with `n = 0` all three are false. -/
def Obligations.DecodeEndsInOneOfThreeOutcomes : Prop :=
  ∀ (fmt : Fmt) (s t : State) (run : Mp3Run) (b : Boot) (n : Word), s.Inv → s.env.turn = .mp3Unit →
    s.mp3.run = some run → run.seq = .decode fmt (.finish b n) → exec (decodeInstr fmt) s = .next t →
    1 ≤ t.mp3.trace.ncalls.toNat ∧ t.mp3.trace.ncalls.toNat ≤ 3
    ∧ (0 < run.lenA.toNat → t.mp3.trace.endState = .done
        ∧ (t.mp3.needMore = true ↔ n.toInt = 0)
        ∧ ((t.mp3.error = true ∧ t.mp3.needMore = false ∧ t.mp3.samples = 0)
          ∨ (t.mp3.error = false ∧ t.mp3.needMore = true ∧ t.mp3.samples = 0)
          ∨ (t.mp3.error = false ∧ t.mp3.needMore = false ∧ 0 < t.mp3.samples.toNat)))
    ∧ (run.lenA.toNat = 0 → t.mp3.trace.ncalls.toNat = 1 ∧ t.mp3.trace.endState = .init
        ∧ t.mp3.needMore = false ∧ (n.toInt = 0 → t.mp3.error = false ∧ t.mp3.samples = 0))

/-- 40_mp3_bootstrap.md R94: MP3_RESET issued to an idle unit and run to its end: one reset pulse on the
inner-decoder port, every result at 0, and nothing else of the block changed. -/
def Obligations.Mp3ResetRunsToItsEnd : Prop :=
  ∀ s : State, s.env.turn = .host → s.mp3.run = none →
    ∃ s1 s2 s3, exec .mp3Reset s = .next s1
      ∧ exec .mp3Reset (atTurn .mp3Unit s1) = .next s2
      ∧ exec .mp3Reset s2 = .next s3
      ∧ s3 = { s with
          mp3 := { s.mp3 with
            n := 0, samples := 0, error := false, needMore := false,
            trace := { ncalls := 0, skip := false, hp1 := false, hp2 := false, hp3 := false, endState := .init },
            done := true, idecLog := .reset :: s.mp3.idecLog }
          env := { s.env with turn := .mp3Unit } }
      ∧ mp3Busy s2.mp3 = true

/-! ### Frames -/

/-- 20_memory.md R48, 00_scope.md R1: a step of a VAD command changes nothing but the VAD unit (and, at acceptance,
the model's record of raced bits): not the MP3 unit, IRQ_ENABLE, any byte of host memory, or the outside world; and of
the VAD unit it never changes an argument register. -/
def Obligations.VadCommandsChangeOnlyTheirUnit : Prop :=
  ∀ (i : Instr) (s t : State), i.unit = .vad → exec i s = .next t →
    t.mp3 = s.mp3 ∧ t.irqEnable = s.irqEnable ∧ (∀ a, readByte t.mem a = readByte s.mem a)
    ∧ t.stale = s.stale ∧ t.env = s.env ∧ (t.race = s.race ∨ (t.race = [] ∧ s.env.turn = .host))
    ∧ t.vad.arg0 = s.vad.arg0 ∧ t.vad.arg1 = s.vad.arg1 ∧ t.vad.arg2 = s.vad.arg2
    ∧ t.vad.rbEpoch = s.vad.rbEpoch
    ∧ (i ≠ .vadProcess → t.vad.rb = s.vad.rb ∧ t.vad.memPort = s.vad.memPort ∧ t.vad.ivadPort = s.vad.ivadPort)

/-- 20_memory.md R48, 00_scope.md R1: a step of an MP3 command changes nothing but the MP3 unit, and of it never an
argument register. -/
def Obligations.Mp3CommandsChangeOnlyTheirUnit : Prop :=
  ∀ (i : Instr) (s t : State), i.unit = .mp3 → exec i s = .next t →
    t.vad = s.vad ∧ t.irqEnable = s.irqEnable ∧ (∀ a, readByte t.mem a = readByte s.mem a)
    ∧ t.race = s.race ∧ t.stale = s.stale ∧ t.env = s.env
    ∧ t.mp3.arg0 = s.mp3.arg0 ∧ t.mp3.arg1 = s.mp3.arg1 ∧ t.mp3.arg2 = s.mp3.arg2 ∧ t.mp3.arg3 = s.mp3.arg3
    ∧ (i = .mp3Reset → t.mp3.idecPort = s.mp3.idecPort)

/-- 10_state.md R44, 60_exceptions.md R132, 70_reset_and_hazards.md R150: a step of a command that does not end it
leaves every result, session and sticky register as it was; only acceptance changes DONE (to 0), only a rejection
CMD_ERR and ERR_CAUSE (to a cause), only an overrun OVERRUN (to 1). -/
def Obligations.RegistersChangeOnlyAtComplete : Prop :=
  (∀ (i : Instr) (s t : State), i.unit = .vad → exec i s = .next t →
    (¬(s.vad.run.isSome = true ∧ t.vad.run = none) →
      t.vad.rate = s.vad.rate ∧ t.vad.flen = s.vad.flen ∧ t.vad.off = s.vad.off ∧ t.vad.mode = s.vad.mode
      ∧ t.vad.hist = s.vad.hist ∧ t.vad.result = s.vad.result ∧ t.vad.rateReject = s.vad.rateReject
      ∧ (t.vad.done = s.vad.done ∨ (t.vad.done = false ∧ s.env.turn = .host ∧ s.vad.run = none)))
    ∧ (s.env.turn ≠ .host →
      t.vad.cmdErr = s.vad.cmdErr ∧ t.vad.errCause = s.vad.errCause ∧ t.vad.overrun = s.vad.overrun))
  ∧ (∀ (i : Instr) (s t : State), i.unit = .mp3 → exec i s = .next t →
    (¬(s.mp3.run.isSome = true ∧ t.mp3.run = none) →
      t.mp3.n = s.mp3.n ∧ t.mp3.samples = s.mp3.samples ∧ t.mp3.error = s.mp3.error
      ∧ t.mp3.needMore = s.mp3.needMore ∧ t.mp3.trace = s.mp3.trace
      ∧ (t.mp3.done = s.mp3.done ∨ (t.mp3.done = false ∧ s.env.turn = .host ∧ s.mp3.run = none)))
    ∧ (s.env.turn ≠ .host →
      t.mp3.cmdErr = s.mp3.cmdErr ∧ t.mp3.errCause = s.mp3.errCause ∧ t.mp3.overrun = s.mp3.overrun))

/-- 10_state.md R38, 70_reset_and_hazards.md R151: a running command reads only its latched arguments: with any other
values in the argument registers, its unit's step is the same. -/
def Obligations.RunningCommandIgnoresTheArgumentRegisters : Prop :=
  (∀ (i : Instr) (s : State) (a0 a1 a2 : Word), i.unit = .vad → s.env.turn = .vadUnit →
    exec i (withVadArgs a0 a1 a2 s) = mapNext (withVadArgs a0 a1 a2) (exec i s))
  ∧ (∀ (i : Instr) (s : State) (a0 a1 a2 a3 : Word), i.unit = .mp3 → s.env.turn = .mp3Unit →
    exec i (withMp3Args a0 a1 a2 a3 s) = mapNext (withMp3Args a0 a1 a2 a3) (exec i s))

/-- 00_scope.md R1, 60_exceptions.md R141: the units share nothing: what a step of a VAD command does to the VAD unit
depends on that unit alone, whatever the other unit, host memory and the outside world hold; and the same for the MP3
unit. -/
def Obligations.UnitsShareNothing : Prop :=
  (∀ (i : Instr) (s1 s2 : State), i.unit = .vad → s1.vad = s2.vad → s1.env.turn = s2.env.turn →
    (∀ t1, exec i s1 = .next t1 → ∃ t2, exec i s2 = .next t2 ∧ t1.vad = t2.vad))
  ∧ (∀ (i : Instr) (s1 s2 : State), i.unit = .mp3 → s1.mp3 = s2.mp3 → s1.env.turn = s2.env.turn →
    (∀ t1, exec i s1 = .next t1 → ∃ t2, exec i s2 = .next t2 ∧ t1.mp3 = t2.mp3))

/-! ### The register window -/

/-- 10_state.md R17: a write to VAD_STATUS clears the W1C fields written with 1 and changes nothing else. -/
def Obligations.VadStatusWriteClearsOnlyWrittenOnes : Prop :=
  ∀ (w : Word) (s : State),
    regWrite .vadStatus w s = .next { s with
      vad := { s.vad with
        done := s.vad.done && !w.getLsbD 1
        cmdErr := s.vad.cmdErr && !w.getLsbD 2
        errCause := if w.getLsbD 2 = true then .none else s.vad.errCause
        overrun := s.vad.overrun && !w.getLsbD 3 } }

/-- 10_state.md R29: a write to MP3_STATUS clears the W1C fields written with 1 and changes nothing else. -/
def Obligations.Mp3StatusWriteClearsOnlyWrittenOnes : Prop :=
  ∀ (w : Word) (s : State),
    regWrite .mp3Status w s = .next { s with
      mp3 := { s.mp3 with
        done := s.mp3.done && !w.getLsbD 1
        cmdErr := s.mp3.cmdErr && !w.getLsbD 2
        errCause := if w.getLsbD 2 = true then .none else s.mp3.errCause
        overrun := s.mp3.overrun && !w.getLsbD 3 } }

/-- 10_state.md R16, R28: each field of the status words at its bits, ERR_CAUSE by the codes of 60_exceptions.md R126, the
reserved bits 0. -/
def Obligations.StatusWordsHoldTheirFields : Prop :=
  (∀ u : VadUnit,
    (vadStatusWord u).getLsbD 0 = vadBusy u ∧ (vadStatusWord u).getLsbD 1 = u.done
    ∧ (vadStatusWord u).getLsbD 2 = u.cmdErr ∧ (vadStatusWord u).getLsbD 3 = u.overrun
    ∧ (vadStatusWord u).extractLsb' 4 4 = (match u.errCause with
        | .none => 0 | .unknownOpcode => 1 | .reservedBits => 2 | .misaligned => 3 | .rangeWrap => 4
        | .bufferOverlap => 5)
    ∧ (vadStatusWord u).getLsbD 8 = u.rateReject ∧ (vadStatusWord u).extractLsb' 9 23 = 0)
  ∧ (∀ u : Mp3Unit,
    (mp3StatusWord u).getLsbD 0 = mp3Busy u ∧ (mp3StatusWord u).getLsbD 1 = u.done
    ∧ (mp3StatusWord u).getLsbD 2 = u.cmdErr ∧ (mp3StatusWord u).getLsbD 3 = u.overrun
    ∧ (mp3StatusWord u).extractLsb' 4 4 = (match u.errCause with
        | .none => 0 | .unknownOpcode => 1 | .reservedBits => 2 | .misaligned => 3 | .rangeWrap => 4
        | .bufferOverlap => 5)
    ∧ (mp3StatusWord u).getLsbD 8 = u.error ∧ (mp3StatusWord u).getLsbD 9 = u.needMore
    ∧ (mp3StatusWord u).extractLsb' 10 22 = 0)

/-- 10_state.md R12, R13: an access of another width or alignment, or at an offset that is not listed, reads 0 and
writes nothing. -/
def Obligations.UndefinedAccessesReadZeroAndWriteNothing : Prop :=
  ∀ (offset : BitVec 13) (width : Width) (w : Word) (s : State),
    width ≠ .w32 ∨ offset.toNat % 4 ≠ 0 ∨ (∀ r : Reg, r.wellFormed = true → r.offset ≠ offset.toNat) →
    windowValue offset width s = 0 ∧ windowWrite offset width w s = .next s

/-- 10_state.md R13, R55: no read of the window changes the block: registers, RB, ports and memory are as before. -/
def Obligations.ReadsChangeNothingOfTheBlock : Prop :=
  ∀ (offset : BitVec 13) (width : Width) (s : State),
    (hostRead offset width s).vad = s.vad ∧ (hostRead offset width s).mp3 = s.mp3
    ∧ (hostRead offset width s).irqEnable = s.irqEnable ∧ (hostRead offset width s).mem = s.mem
    ∧ (hostRead offset width s).race = s.race ∧ (hostRead offset width s).stale = s.stale
    ∧ (hostRead offset width s).env.results = windowValue offset width s :: s.env.results

/-- 10_state.md R11, R14, R18 to R20, R30, R34: what a write of each register but the command and status registers
does: the argument registers and IRQ_ENABLE take the value, and every other register is unchanged. -/
def Obligations.OnlyReadWriteRegistersTakeAWrite : Prop :=
  ∀ (w : Word) (s : State),
    regWrite .vadArg0 w s = .next { s with vad := { s.vad with arg0 := w } }
    ∧ regWrite .vadArg1 w s = .next { s with vad := { s.vad with arg1 := w } }
    ∧ regWrite .vadArg2 w s = .next { s with vad := { s.vad with arg2 := w } }
    ∧ regWrite .mp3Arg0 w s = .next { s with mp3 := { s.mp3 with arg0 := w } }
    ∧ regWrite .mp3Arg1 w s = .next { s with mp3 := { s.mp3 with arg1 := w } }
    ∧ regWrite .mp3Arg2 w s = .next { s with mp3 := { s.mp3 with arg2 := w } }
    ∧ regWrite .mp3Arg3 w s = .next { s with mp3 := { s.mp3 with arg3 := w } }
    ∧ (∃ t, regWrite .irqEnable w s = .next t ∧ t = { s with irqEnable := t.irqEnable }
        ∧ t.irqEnable.getLsbD 0 = w.getLsbD 0 ∧ t.irqEnable.getLsbD 1 = w.getLsbD 1
        ∧ (regValue .irqEnable t).extractLsb' 2 30 = 0)
    ∧ (∀ r ∈ [Reg.vadResult, .vadRate, .vadFlen, .vadOff, .vadMode, .vadHistErr, .vadHistSil, .vadHistVoi,
        .vadHistNoi, .mp3N, .mp3Samples, .mp3Trace, .irqStatus], regWrite r w s = .next s)
    ∧ (∀ k, regWrite (.rbWin k) w s = .next s)
    ∧ regValue .vadCmd s = 0 ∧ regValue .mp3Cmd s = 0

/-- 10_state.md R35, 60_exceptions.md R134: IRQ_STATUS and the interrupt output, from DONE and IRQ_ENABLE. -/
def Obligations.IrqIsDoneAndEnabled : Prop :=
  ∀ s : State,
    (regValue .irqStatus s).getLsbD 0 = (s.vad.done && s.irqEnable.getLsbD 0)
    ∧ (regValue .irqStatus s).getLsbD 1 = (s.mp3.done && s.irqEnable.getLsbD 1)
    ∧ (regValue .irqStatus s).extractLsb' 2 30 = 0
    ∧ (irqLine s = true ↔ regValue .irqStatus s ≠ 0)
    ∧ regValue .irqStatus State.reset = 0

/-- 10_state.md R33: each field of MP3_TRACE at its bits, the reserved bits 0, END_STATE by the encoding of
40_mp3_bootstrap.md R82. -/
def Obligations.TraceWordHoldsItsFields : Prop :=
  ∀ t : Trace,
    (traceWord t).extractLsb' 0 2 = t.ncalls ∧ (traceWord t).getLsbD 2 = t.skip
    ∧ (traceWord t).getLsbD 3 = t.hp1 ∧ (traceWord t).getLsbD 4 = t.hp2 ∧ (traceWord t).getLsbD 5 = t.hp3
    ∧ (traceWord t).extractLsb' 6 2 = 0 ∧ (traceWord t).extractLsb' 10 22 = 0
    ∧ (traceWord t).extractLsb' 8 2
        = (match t.endState with | .init => 0 | .head => 1 | .frame => 2 | .done => 3)

/-- 10_state.md R36: word `k` of RB_WIN while the VAD unit is idle: element `2k` in the low half, `2k + 1` in the
high half. -/
def Obligations.RingWindowShowsTwoElements : Prop :=
  ∀ (s : State) (k : Nat), k < 720 → vadBusy s.vad = false →
    regAt (0x800 + 4 * k) = some (.rbWin k)
    ∧ (regValue (.rbWin k) s).extractLsb' 0 16 = ringRead s.vad (2 * k)
    ∧ (regValue (.rbWin k) s).extractLsb' 16 16 = ringRead s.vad (2 * k + 1)

/-! ### Host memory -/

/-- 20_memory.md R49, R50: where all four bytes are known and no bit is unfixed, host memory answers the little-endian
word, and nothing else changes. -/
def Obligations.MemReadAnswersTheLittleEndianWord : Prop :=
  ∀ (s : State) (a : Word) (b0 b1 b2 b3 : Byte), s.vad.memPort = .pending a →
    readByte s.mem a.toNat = some b0 → readByte s.mem (a.toNat + 1) = some b1 →
    readByte s.mem (a.toNat + 2) = some b2 → readByte s.mem (a.toNat + 3) = some b3 →
    unfixedBits s a.toNat = 0 →
    ∃ w : Word, memoryMove s = { s with vad := { s.vad with memPort := .answered w } }
      ∧ w.extractLsb' 0 8 = b0 ∧ w.extractLsb' 8 8 = b1 ∧ w.extractLsb' 16 8 = b2 ∧ w.extractLsb' 24 8 = b3

/-- 20_memory.md R54: with unfixed bits, host memory still answers, and every bit that no write has touched is the
memory's; a host write while the VAD unit is BUSY unfixes exactly the bits it changes. The free bits are any
(`Config.draw`). Which bits are unfixed is the model's reading of R54 (log 12). -/
def Obligations.RacedBitsAloneAreFree : Prop :=
  (∀ (s : State) (a w : Word), s.vad.memPort = .pending a → wordAt s.mem a.toNat = some w →
    ∃ v : Word, (memoryMove s).vad = { s.vad with memPort := .answered v }
      ∧ (memoryMove s).mem = s.mem ∧ (memoryMove s).mp3 = s.mp3
      ∧ ∀ k, k < 32 → (unfixedBits s a.toNat).getLsbD k = false → v.getLsbD k = w.getLsbD k)
  ∧ (∀ (s : State) (addr : Word) (b old : Byte), vadBusy s.vad = true →
      inRunningOutput s.mp3 addr.toNat = false → readByte s.mem addr.toNat = some old →
      ∀ x, maskAt (hostStore addr b s).race x
        = if x = addr.toNat then maskAt s.race x ||| (old ^^^ b) else maskAt s.race x)

/-- 60_exceptions.md R141, 20_memory.md R60: one of the host's own writes outside the output regions of a running
decode leaves its byte there and every other byte as it was; it changes no register. That a stored byte is then known
memory is the model's choice (log 10). -/
def Obligations.HostStoreChangesOneByte : Prop :=
  ∀ (s : State) (addr : Word) (b : Byte), inRunningOutput s.mp3 addr.toNat = false →
    readByte (hostStore addr b s).mem addr.toNat = some b
    ∧ (∀ x, x ≠ addr.toNat → readByte (hostStore addr b s).mem x = readByte s.mem x)
    ∧ (hostStore addr b s).vad = s.vad ∧ (hostStore addr b s).mp3 = s.mp3
    ∧ (hostStore addr b s).irqEnable = s.irqEnable

/-- 20_memory.md R48, R61: the inner decoder's answer comes with its writes, which stay inside the two output regions
of its request; the VAD unit and every other byte of host memory are unchanged. That the writes are performed in the
answer's own step is the model's choice (log 30), their bounds log 16. -/
def Obligations.InnerDecoderWritesOnlyItsOutputs : Prop :=
  ∀ (s : State) (r : IdecReq), s.mp3.idecPort = .pending r →
    ∃ n hp, (innerDecoderMove s).mp3 = { s.mp3 with
        idecPort := .answered (n, hp), idecLog := .answer n hp :: s.mp3.idecLog }
      ∧ (innerDecoderMove s).vad = s.vad
      ∧ ∀ a, ¬(r.left.toNat ≤ a ∧ a < r.left.toNat + 1152 * (match r.fmt with | .s16 => 2 | .f32 => 4)) →
          ¬(r.right.toNat ≤ a ∧ a < r.right.toNat + 1152 * (match r.fmt with | .s16 => 2 | .f32 => 4)) →
          readByte (innerDecoderMove s).mem a = readByte s.mem a

/-! ### Reset -/

/-- 70_reset_and_hazards.md R145, R147: the reset input, as one step of any state: every register at its reset value,
both units idle with nothing committed, pending requests withdrawn, one pulse on each port; outside the output
regions of an abandoned decode, host memory is unchanged. -/
def Obligations.HardwareResetAbandonsEverything : Prop :=
  ∀ (s : State) (ops : List HostOp), s.env.hostOps = .assertRst :: ops → s.env.turn = .host →
    ∃ t, agentMove s = .next t
      ∧ (∀ r : Reg, r.wellFormed = true → (∀ k, r ≠ .rbWin k) → regValue r t = 0)
      ∧ irqLine t = false ∧ t.vad.run = none ∧ t.mp3.run = none
      ∧ t.vad.memPort = .idle ∧ t.vad.ivadPort = .idle ∧ t.mp3.idecPort = .idle
      ∧ t.vad.ivadLog = .reset :: s.vad.ivadLog ∧ t.mp3.idecLog = .reset :: s.mp3.idecLog
      ∧ ∀ a, inRunningOutput s.mp3 a = false → readByte t.mem a = readByte s.mem a

/-- 10_state.md R45, 70_reset_and_hazards.md R146: after reset every listed register but RB_WIN reads 0, the interrupt
output is low and both units are idle. -/
def Obligations.ResetStateReadsZero : Prop :=
  (∀ r : Reg, r.wellFormed = true → (∀ k, r ≠ .rbWin k) → regValue r State.reset = 0)
  ∧ irqLine State.reset = false ∧ vadBusy State.reset.vad = false ∧ mp3Busy State.reset.mp3 = false

/-! ### The machine as a whole -/

/-- The invariant holds after reset. -/
def Obligations.ResetMeetsTheInvariant : Prop := State.reset.Inv

/-- 10_state.md R41, 20_memory.md R53, 40_mp3_bootstrap.md R88, 41_vad_frame_assembler.md R103, R105, R107,
43_vad_session.md R121: every step of every agent, from any state that meets the invariant, keeps it. -/
def Obligations.EveryStepKeepsTheInvariant : Prop :=
  ∀ s t : State, s.Inv → step s = .next t → t.Inv

/-- 60_exceptions.md R131: the block has no fatal condition: from any state that meets the invariant, every step of
every agent has a next state. -/
def Obligations.NoStepStops : Prop :=
  ∀ s : State, s.Inv → ∃ t, step s = .next t

/-- 41_vad_frame_assembler.md R103, 60_exceptions.md R142: while the VAD unit is BUSY, the agent whose step its
command needs brings it nearer to its end, by a measure that is a number; in every run the host, the VAD unit and host
memory move again and again; so the unit's command ends exactly when every request it makes before its end is answered
(or withdrawn by the reset that ends it). How a request is divided into steps is log 3, who is sure of its turns
log 23. -/
def Obligations.VadCommandComesToItsEnd : Prop :=
  (∀ s : State, s.Inv → vadBusy s.vad = true → s.env.turn = vadMover s.vad →
    (∀ a, s.vad.memPort = .pending a → (memRead a s).isSome = true) →
    ∃ t, agentMove s = .next t ∧ vadMeasure t.vad < vadMeasure s.vad
      ∧ (vadBusy t.vad = false → t.vad.done = true))
  ∧ (∀ (r : Nat → State) (a : Agent), IsRun r → a = .host ∨ a = .vadUnit ∨ a = .hostMemory →
    ∀ n, ∃ m, n ≤ m ∧ (takeTurn (r m)).env.turn = a)
  ∧ (∀ r : Nat → State, IsRun r → (r 0).Inv → ∀ n, vadBusy (r n).vad = true →
    ((∃ m, n ≤ m ∧ vadBusy (r m).vad = false)
      ↔ ∀ k, n ≤ k → (∀ j, n ≤ j → j ≤ k → vadBusy (r j).vad = true) → vadWaits (r k).vad →
        ∃ m, k ≤ m ∧ ¬ vadWaits (r m).vad))

/-- 40_mp3_bootstrap.md R88, 60_exceptions.md R142: while the MP3 unit is BUSY, the agent whose step its command needs
brings it nearer to its end; in every run the MP3 unit moves again and again; so its command ends exactly when every
request it makes before its end is answered (or withdrawn by the reset that ends it). How a request is divided into
steps is log 3, who is sure of its turns log 23. -/
def Obligations.Mp3CommandComesToItsEnd : Prop :=
  (∀ s : State, s.Inv → mp3Busy s.mp3 = true → s.env.turn = mp3Mover s.mp3 →
    ∃ t, agentMove s = .next t ∧ mp3Measure t.mp3 < mp3Measure s.mp3
      ∧ (mp3Busy t.mp3 = false → t.mp3.done = true))
  ∧ (∀ r : Nat → State, IsRun r → ∀ n, ∃ m, n ≤ m ∧ (takeTurn (r m)).env.turn = .mp3Unit)
  ∧ (∀ r : Nat → State, IsRun r → (r 0).Inv → ∀ n, mp3Busy (r n).mp3 = true →
    ((∃ m, n ≤ m ∧ mp3Busy (r m).mp3 = false)
      ↔ ∀ k, n ≤ k → (∀ j, n ≤ j → j ≤ k → mp3Busy (r j).mp3 = true) → mp3Waits (r k).mp3 →
        ∃ m, k ≤ m ∧ ¬ mp3Waits (r m).mp3))

/-- 43_vad_session.md R118: only the end of a VAD_INIT and the hardware reset set a locked rate back to 0, and no step
changes it to another rate. -/
def Obligations.OnlyInitAndResetUnlockTheRate : Prop :=
  ∀ s t : State, s.Inv → step s = .next t → s.vad.rate ≠ 0 → t.vad.rate ≠ s.vad.rate →
    t.vad.rate = 0
    ∧ (((takeTurn s).env.turn = .host ∧ s.env.hostOps.head? = some .assertRst)
      ∨ ((takeTurn s).env.turn = .vadUnit ∧ s.vad.run.map VadRun.seq = some (.init true) ∧ t.vad.run = none))

/-- 10_state.md R44, 60_exceptions.md R136: no step but a command's `complete`, at its unit's turn, sets DONE, and
BUSY ends only there or at the hardware reset, at the host's turn. -/
def Obligations.OnlyCompleteSetsDone : Prop :=
  ∀ s t : State, step s = .next t →
    (s.vad.done = false → t.vad.done = true →
      (takeTurn s).env.turn = .vadUnit ∧ vadBusy s.vad = true ∧ vadBusy t.vad = false)
    ∧ (s.mp3.done = false → t.mp3.done = true →
      (takeTurn s).env.turn = .mp3Unit ∧ mp3Busy s.mp3 = true ∧ mp3Busy t.mp3 = false)
    ∧ (vadBusy s.vad = true → vadBusy t.vad = false →
      ((takeTurn s).env.turn = .vadUnit ∧ t.vad.done = true)
      ∨ ((takeTurn s).env.turn = .host ∧ s.env.hostOps.head? = some .assertRst))
    ∧ (mp3Busy s.mp3 = true → mp3Busy t.mp3 = false →
      ((takeTurn s).env.turn = .mp3Unit ∧ t.mp3.done = true)
      ∨ ((takeTurn s).env.turn = .host ∧ s.env.hostOps.head? = some .assertRst))

/-! ### The register window, register by register -/

/-- 10_state.md R11, R14, R16, R18 to R26, R28, R30 to R36: what an aligned 32-bit read of each listed offset returns:
its own register's field, the status and trace words, 0 for the command registers, two elements of RB for a word of
RB_WIN while the VAD unit is idle; and an aligned 32-bit write at a listed offset is a write of its register. -/
def Obligations.ListedAccessesReachTheirRegisters : Prop :=
  (∀ s : State,
    windowValue 0x000 .w32 s = 0 ∧ windowValue 0x004 .w32 s = vadStatusWord s.vad
    ∧ windowValue 0x008 .w32 s = s.vad.arg0 ∧ windowValue 0x00C .w32 s = s.vad.arg1
    ∧ windowValue 0x010 .w32 s = s.vad.arg2 ∧ windowValue 0x014 .w32 s = s.vad.result
    ∧ windowValue 0x018 .w32 s = s.vad.rate ∧ windowValue 0x01C .w32 s = s.vad.flen
    ∧ windowValue 0x020 .w32 s = s.vad.off ∧ (windowValue 0x024 .w32 s).toNat = s.vad.mode.toNat
    ∧ windowValue 0x028 .w32 s = s.vad.hist.err ∧ windowValue 0x02C .w32 s = s.vad.hist.sil
    ∧ windowValue 0x030 .w32 s = s.vad.hist.voi ∧ windowValue 0x034 .w32 s = s.vad.hist.noi
    ∧ windowValue 0x040 .w32 s = 0 ∧ windowValue 0x044 .w32 s = mp3StatusWord s.mp3
    ∧ windowValue 0x048 .w32 s = s.mp3.arg0 ∧ windowValue 0x04C .w32 s = s.mp3.arg1
    ∧ windowValue 0x050 .w32 s = s.mp3.arg2 ∧ windowValue 0x054 .w32 s = s.mp3.arg3
    ∧ windowValue 0x058 .w32 s = s.mp3.n ∧ windowValue 0x05C .w32 s = s.mp3.samples
    ∧ windowValue 0x060 .w32 s = traceWord s.mp3.trace
    ∧ (windowValue 0x078 .w32 s).toNat = s.irqEnable.toNat
    ∧ (windowValue 0x07C .w32 s).toNat
        = (if s.vad.done && s.irqEnable.getLsbD 0 then 1 else 0)
          + (if s.mp3.done && s.irqEnable.getLsbD 1 then 2 else 0)
    ∧ ∀ k, k < 720 → vadBusy s.vad = false →
      windowValue (BitVec.ofNat 13 (0x800 + 4 * k)) .w32 s
        = ringRead s.vad (2 * k + 1) ++ ringRead s.vad (2 * k))
  ∧ ∀ (offset : BitVec 13) (r : Reg) (w : Word) (s : State), r.wellFormed = true → r.offset = offset.toNat →
    windowWrite offset .w32 w s = regWrite r w s
end

