-- ==== Sys2Proof/Laws/Cells.lean ====
section
/-! SUPPORT. Cells: a read after a write, and the canonical form, which every operation keeps. -/

namespace Sys2Proof.Machine

variable {n : Nat}

@[simp] theorem cellGet_nil (a : Nat) : cellGet ([] : Cells n) a = none := rfl

theorem cellGet_cons (k : Nat) (v : BitVec n) (c : Cells n) (a : Nat) :
    cellGet ((k, v) :: c) a = if a = k then some v else cellGet c a := rfl

theorem cellSet_cons (k : Nat) (w : BitVec n) (c : Cells n) (a : Nat) (v : BitVec n) :
    cellSet ((k, w) :: c) a v = if a < k then (a, v) :: (k, w) :: c
      else if a = k then (a, v) :: c else (k, w) :: cellSet c a v := rfl

/-- A read of any index after a write of one. -/
theorem cellGet_set (c : Cells n) (a b : Nat) (v : BitVec n) :
    cellGet (cellSet c a v) b = if b = a then some v else cellGet c b := by
  induction c with
  | nil => rfl
  | cons e c ih =>
    obtain ⟨k, w⟩ := e
    rw [cellSet_cons]
    split
    · rw [cellGet_cons]
    · split
      · next h => subst h; simp only [cellGet_cons]; split <;> rfl
      · next h =>
        simp only [cellGet_cons, ih]
        split
        · next hb => subst hb; rw [if_neg (Ne.symm h)]
        · rfl

@[simp] theorem cellGet_set_same (c : Cells n) (a : Nat) (v : BitVec n) :
    cellGet (cellSet c a v) a = some v := by rw [cellGet_set, if_pos rfl]

theorem cellGet_set_ne (c : Cells n) {a b : Nat} (v : BitVec n) (h : b ≠ a) :
    cellGet (cellSet c a v) b = cellGet c b := by rw [cellGet_set, if_neg h]

/-- A listed cell after a write is the written one or was listed before. -/
theorem mem_cellSet {c : Cells n} {a : Nat} {v : BitVec n} {e : Nat × BitVec n} (h : e ∈ cellSet c a v) :
    e = (a, v) ∨ e ∈ c := by
  induction c with
  | nil => simpa [cellSet] using h
  | cons f c ih =>
    obtain ⟨k, w⟩ := f
    rw [cellSet_cons] at h
    split at h
    · simpa using h
    · split at h
      · rcases List.mem_cons.1 h with h | h
        · exact .inl h
        · exact .inr (List.mem_cons_of_mem _ h)
      · rcases List.mem_cons.1 h with h | h
        · exact .inr (h ▸ List.mem_cons_self)
        · rcases ih h with h | h
          · exact .inl h
          · exact .inr (List.mem_cons_of_mem _ h)

theorem cellsWf_cons {k : Nat} {w : BitVec n} {c : Cells n} :
    CellsWf ((k, w) :: c) ↔ (∀ e ∈ c, k < e.1) ∧ CellsWf c := by
  simp [CellsWf, List.pairwise_cons]

/-- A write keeps the canonical form. -/
theorem cellSet_wf {c : Cells n} (h : CellsWf c) (a : Nat) (v : BitVec n) : CellsWf (cellSet c a v) := by
  induction c with
  | nil => simp [cellSet, CellsWf]
  | cons e c ih =>
    obtain ⟨k, w⟩ := e
    obtain ⟨hk, hc⟩ := cellsWf_cons.1 h
    rw [cellSet_cons]
    split
    · next hlt =>
      refine cellsWf_cons.2 ⟨fun e he => ?_, h⟩
      rcases List.mem_cons.1 he with rfl | he
      · exact hlt
      · exact Nat.lt_trans hlt (hk e he)
    · split
      · next _ heq => subst heq; exact cellsWf_cons.2 ⟨hk, hc⟩
      · next h1 h2 =>
        refine cellsWf_cons.2 ⟨fun e he => ?_, ih hc⟩
        rcases mem_cellSet he with rfl | he
        · exact Nat.lt_of_le_of_ne (Nat.le_of_not_lt h1) (Ne.symm h2)
        · exact hk e he

theorem maskAdd_wf {c : Cells 8} (h : CellsWf c) (a : Nat) (m : Byte) : CellsWf (maskAdd c a m) := by
  unfold maskAdd
  split
  · exact h
  · exact cellSet_wf h a _

theorem maskDrop_wf {c : Cells 8} (h : CellsWf c) (lo hi : Nat) : CellsWf (maskDrop c lo hi) := by
  unfold CellsWf maskDrop at *
  rw [List.pairwise_map] at *
  exact h.filter _

/-- A mask after bits are added at one address. -/
theorem maskAt_add (c : Cells 8) (a b : Nat) (m : Byte) :
    maskAt (maskAdd c a m) b = if b = a then maskAt c a ||| m else maskAt c b := by
  unfold maskAdd
  split
  · next h => subst h; split <;> simp_all
  · simp only [maskAt, cellGet_set]; split <;> rfl

end Sys2Proof.Machine
end

