-- ==== Sys2Proof/Laws/Memory.lean ====
section
/-! SUPPORT. Host memory: what each operation that writes it leaves at an address, and that each keeps the canonical
form of memory and of its two masks. -/

namespace Sys2Proof.Machine

/-- The canonical forms of host memory and of its masks. -/
structure MemWf (s : State) : Prop where
  mem : Memory.wf s.mem
  race : CellsWf s.race
  stale : CellsWf s.stale

/-- The canonical forms hold at reset. -/
theorem reset_memWf : MemWf State.reset := ⟨by decide, by decide, by decide⟩

@[simp] theorem putByte_vad (a : Nat) (b : Byte) (s : State) : (putByte a b s).vad = s.vad := rfl
@[simp] theorem putByte_mp3 (a : Nat) (b : Byte) (s : State) : (putByte a b s).mp3 = s.mp3 := rfl
@[simp] theorem putByte_irqEnable (a : Nat) (b : Byte) (s : State) : (putByte a b s).irqEnable = s.irqEnable := rfl
@[simp] theorem putByte_stale (a : Nat) (b : Byte) (s : State) : (putByte a b s).stale = s.stale := rfl
@[simp] theorem putByte_env (a : Nat) (b : Byte) (s : State) : (putByte a b s).env = s.env := rfl

/-- What any address holds after a byte is written. -/
theorem readByte_putByte (a x : Nat) (b : Byte) (s : State) :
    readByte (putByte a b s).mem x = if x = a then some b else readByte s.mem x :=
  cellGet_set s.mem a x b

theorem memory_set_wf {m : Memory} (h : Memory.wf m) {a : Nat} (ha : a < addressTop) (b : Byte) :
    Memory.wf (cellSet (n := 8) m a b) := by
  refine ⟨cellSet_wf h.1 a b, fun c hc => ?_⟩
  rcases mem_cellSet hc with rfl | hc
  · exact ha
  · exact h.2 c hc

theorem putByte_wf {s : State} (h : MemWf s) {a : Nat} (ha : a < addressTop) (b : Byte) :
    MemWf (putByte a b s) := by
  refine ⟨memory_set_wf h.mem ha b, ?_, h.stale⟩
  unfold putByte
  dsimp only
  split
  · exact maskAdd_wf h.race _ _
  · exact h.race

theorem drawn_wf {s : State} (h : MemWf s) : MemWf (drawn s) := ⟨h.mem, h.race, h.stale⟩

theorem hostStore_wf {s : State} (h : MemWf s) (addr : Word) (b : Byte) : MemWf (hostStore addr b s) := by
  have hp : ∀ (x : Byte) (t : State), MemWf t → MemWf (putByte addr.toNat x t) :=
    fun x t ht => putByte_wf ht addr.isLt x
  have hs : ∀ (x : Byte), CellsWf (if Config.pCoherent then s.stale
      else maskAdd s.stale addr.toNat (changedBits (readByte s.mem addr.toNat) x)) := by
    intro x
    split
    · exact h.stale
    · exact maskAdd_wf h.stale _ _
  unfold hostStore
  dsimp only
  split
  · exact ⟨(hp _ _ (drawn_wf h)).mem, (hp _ _ (drawn_wf h)).race, hs _⟩
  · exact ⟨(hp _ _ h).mem, (hp _ _ h).race, hs _⟩

theorem hostStoreBytes_wf {s : State} (h : MemWf s) (addr : Nat) (bytes : List Byte) :
    MemWf (hostStoreBytes addr bytes s) := by
  induction bytes generalizing addr s with
  | nil => exact h
  | cons b bytes ih =>
    unfold hostStoreBytes
    apply ih
    split
    · exact hostStore_wf h _ _
    · exact h

theorem hostClean_wf {s : State} (h : MemWf s) (addr len : Word) : MemWf (hostClean addr len s) :=
  ⟨h.mem, h.race, maskDrop_wf h.stale _ _⟩

theorem writeRegion_wf {s : State} (h : MemWf s) (base size : Nat) (ws : List (Nat × Byte)) :
    MemWf (writeRegion base size ws s) := by
  induction ws generalizing s with
  | nil => exact h
  | cons w ws ih =>
    obtain ⟨k, b⟩ := w
    unfold writeRegion
    apply ih
    split
    · next hk => exact putByte_wf h hk.2 b
    · exact h

theorem writeOutputs_wf {s : State} (h : MemWf s) (fmt : Fmt) (l r : Word) (w : OutputWrites) :
    MemWf (writeOutputs fmt l r w s) :=
  writeRegion_wf (writeRegion_wf h _ _ _) _ _ _

/-- A region's writes change the memory and its race mask, and nothing else. -/
theorem writeRegion_rest (base size : Nat) (ws : List (Nat × Byte)) (s : State) :
    (writeRegion base size ws s).vad = s.vad ∧ (writeRegion base size ws s).mp3 = s.mp3
      ∧ (writeRegion base size ws s).irqEnable = s.irqEnable ∧ (writeRegion base size ws s).stale = s.stale
      ∧ (writeRegion base size ws s).env = s.env := by
  induction ws generalizing s with
  | nil => exact ⟨rfl, rfl, rfl, rfl, rfl⟩
  | cons w ws ih =>
    obtain ⟨k, b⟩ := w
    unfold writeRegion
    split
    · exact ih (putByte (base + k) b s)
    · exact ih s

/-- A region's writes leave every address outside the region as it is. -/
theorem readByte_writeRegion {base size x : Nat} (hx : inRegion base size x = false) (ws : List (Nat × Byte))
    (s : State) : readByte (writeRegion base size ws s).mem x = readByte s.mem x := by
  induction ws generalizing s with
  | nil => rfl
  | cons w ws ih =>
    obtain ⟨k, b⟩ := w
    unfold writeRegion
    rw [ih]
    split
    · next hk =>
      rw [readByte_putByte, if_neg]
      rintro rfl
      simp [inRegion] at hx
      omega
    · rfl

theorem writeOutputs_rest (fmt : Fmt) (l r : Word) (w : OutputWrites) (s : State) :
    (writeOutputs fmt l r w s).vad = s.vad ∧ (writeOutputs fmt l r w s).mp3 = s.mp3
      ∧ (writeOutputs fmt l r w s).irqEnable = s.irqEnable ∧ (writeOutputs fmt l r w s).stale = s.stale
      ∧ (writeOutputs fmt l r w s).env = s.env := by
  have h1 := writeRegion_rest l.toNat (regionBytes fmt) w.left s
  have h2 := writeRegion_rest r.toNat (regionBytes fmt) w.right (writeRegion l.toNat (regionBytes fmt) w.left s)
  unfold writeOutputs
  exact ⟨h2.1.trans h1.1, h2.2.1.trans h1.2.1, h2.2.2.1.trans h1.2.2.1, h2.2.2.2.1.trans h1.2.2.2.1,
    h2.2.2.2.2.trans h1.2.2.2.2⟩

/-- What a host store leaves as it is beside memory and its masks: of the outside world, all but the free words. -/
theorem hostStore_rest (addr : Word) (b : Byte) (s : State) :
    (hostStore addr b s).vad = s.vad ∧ (hostStore addr b s).mp3 = s.mp3
      ∧ (hostStore addr b s).irqEnable = s.irqEnable
      ∧ ∃ d, (hostStore addr b s).env = { s.env with draws := d } := by
  unfold hostStore
  dsimp only
  split
  · exact ⟨rfl, rfl, rfl, _, rfl⟩
  · exact ⟨rfl, rfl, rfl, s.env.draws, rfl⟩

theorem hostStoreBytes_rest (addr : Nat) (bytes : List Byte) (s : State) :
    (hostStoreBytes addr bytes s).vad = s.vad ∧ (hostStoreBytes addr bytes s).mp3 = s.mp3
      ∧ (hostStoreBytes addr bytes s).irqEnable = s.irqEnable
      ∧ ∃ d, (hostStoreBytes addr bytes s).env = { s.env with draws := d } := by
  induction bytes generalizing addr s with
  | nil => exact ⟨rfl, rfl, rfl, s.env.draws, rfl⟩
  | cons b bytes ih =>
    unfold hostStoreBytes
    split
    · obtain ⟨h1, h2, h3, d, h4⟩ := ih (addr + 1) (hostStore (BitVec.ofNat 32 addr) b s)
      obtain ⟨g1, g2, g3, e, g4⟩ := hostStore_rest (BitVec.ofNat 32 addr) b s
      exact ⟨h1.trans g1, h2.trans g2, h3.trans g3, d, by rw [h4, g4]⟩
    · exact ih (addr + 1) s

/-- A reset's leftovers in the output regions touch memory only. -/
theorem abandonOutputs_wf {s : State} (h : MemWf s) : MemWf (abandonOutputs s) := by
  unfold abandonOutputs
  split
  · exact h
  · split
    · exact h
    · exact writeOutputs_wf (drawn_wf h) _ _ _ _

theorem hardReset_wf {s : State} (h : MemWf s) : MemWf (hardReset s) :=
  ⟨(abandonOutputs_wf h).mem, List.Pairwise.nil, (abandonOutputs_wf h).stale⟩

theorem innerDecoderMove_wf {s : State} (h : MemWf s) : MemWf (innerDecoderMove s) := by
  unfold innerDecoderMove
  split
  · exact h
  · exact h
  · have w := fun r : IdecReq => fun ws => writeOutputs_wf h r.fmt r.left r.right ws
    exact ⟨(w _ _).mem, (w _ _).race, (w _ _).stale⟩

end Sys2Proof.Machine
end

