-- ==== Sys2Proof/Laws/Ops.lean ====
section
/-! SUPPORT. One lemma per shared operation that says once everything it can do: where it answers a next state `t`,
which case held and what `t` is. Later proofs cite these and unfold nothing. -/

namespace Sys2Proof.Machine

theorem next_inj {s t : State} : (Host.Outcome.next s : Result) = .next t ↔ t = s := by
  constructor
  · intro h; injection h with h; exact h.symm
  · rintro rfl; rfl

/-! ### Acceptance -/

theorem issueVad_cases {seq : VadSeq} {check : Option Cause} {s t : State} (h : t = issueVad seq check s) :
    (s.vad.run.isSome = true ∧ t = overrun .vad s)
    ∨ (s.vad.run = none ∧ ∃ c, check = some c ∧ t = reject .vad c s)
    ∨ (s.vad.run = none ∧ check = none ∧ t = acceptVad seq s) := by
  subst h
  cases hr : s.vad.run with
  | some r => exact .inl ⟨rfl, by simp [issueVad, vadBusy, hr]⟩
  | none =>
    cases check with
    | some c => exact .inr (.inl ⟨rfl, c, rfl, by simp [issueVad, vadBusy, hr]⟩)
    | none => exact .inr (.inr ⟨rfl, rfl, by simp [issueVad, vadBusy, hr]⟩)

theorem issueMp3_cases {seq : Mp3Seq} {check : Option Cause} {s t : State} (h : t = issueMp3 seq check s) :
    (s.mp3.run.isSome = true ∧ t = overrun .mp3 s)
    ∨ (s.mp3.run = none ∧ ∃ c, check = some c ∧ t = reject .mp3 c s)
    ∨ (s.mp3.run = none ∧ check = none ∧ t = acceptMp3 seq s) := by
  subst h
  cases hr : s.mp3.run with
  | some r => exact .inl ⟨rfl, by simp [issueMp3, mp3Busy, hr]⟩
  | none =>
    cases check with
    | some c => exact .inr (.inl ⟨rfl, c, rfl, by simp [issueMp3, mp3Busy, hr]⟩)
    | none => exact .inr (.inr ⟨rfl, rfl, by simp [issueMp3, mp3Busy, hr]⟩)

/-- What a command register's unit does with any word (30_encoding.md R72). -/
theorem commandWrite_cases (u : UnitId) (w : Word) (s : State) :
    (∃ i, i.unit = u ∧ decodeCommand u w = .ok i ∧ commandWrite u w s = exec i s)
    ∨ (∃ c, decodeCommand u w = .error c
        ∧ commandWrite u w s = .next (if busy u s then overrun u s else reject u c s)) := by
  unfold commandWrite
  cases hd : decodeCommand u w with
  | error c => exact .inr ⟨c, rfl, rfl⟩
  | ok i =>
    refine .inl ⟨i, ?_, rfl, rfl⟩
    revert hd
    cases u <;> simp only [decodeCommand, commandOf] <;> intro hd <;>
      (split at hd; · cases hd) <;> rename_i j hj <;> (split at hd <;> cases hd) <;>
      (split_ifs at hj <;> cases hj <;> rfl)

/-! ### VAD_INIT and VAD_SETMODE -/

theorem runVadInit_cases {s t : State} (h : t = runVadInit s) :
    (∃ r, s.vad.run = some r ∧ r.seq = .init false ∧ t = vadGoto (.init true) (pulseIvad s))
    ∨ (∃ r, s.vad.run = some r ∧ r.seq = .init true ∧ t = completeVad initCommit s)
    ∨ t = s := by
  subst h
  unfold runVadInit
  split
  · next h =>
    obtain ⟨r, hr, hq⟩ := Option.map_eq_some_iff.1 h
    exact .inl ⟨r, hr, hq, rfl⟩
  · next h =>
    obtain ⟨r, hr, hq⟩ := Option.map_eq_some_iff.1 h
    exact .inr (.inl ⟨r, hr, hq, rfl⟩)
  · exact .inr (.inr rfl)

theorem runVadSetmode_cases {s t : State} (h : t = runVadSetmode s) :
    (∃ r, s.vad.run = some r ∧ r.seq = .setmode ∧ t = completeVad (setmodeCommit r.rateA) s) ∨ t = s := by
  subst h
  unfold runVadSetmode
  split
  · next h => exact .inl ⟨_, h, rfl, rfl⟩
  · exact .inr rfl

/-! ### VAD_PROCESS -/

/-- The rate check passes only with a supported rate and its frame length, or with the locked ones
(43_vad_session.md R115). -/
theorem rateCheck_cases {rateA r f : Word} {u : VadUnit} (h : rateCheck rateA u = some (r, f)) :
    r = rateA ∧ ((u.rate = 0 ∧ rateA ∈ Config.rates ∧ f = flenOf rateA)
      ∨ (u.rate ≠ 0 ∧ rateA = u.rate ∧ f = u.flen)) := by
  unfold rateCheck at h
  split_ifs at h with h0 h1 h2
  · injection h with h; injection h with h3 h4; exact ⟨h3.symm, .inl ⟨h0, h1, h4.symm⟩⟩
  · injection h with h; injection h with h3 h4
    have h2 := not_not.1 h2
    exact ⟨h3.symm.trans h2.symm, .inr ⟨h0, h2, h4.symm⟩⟩

theorem iterate_cases {w : ProcWork} {s t : State} (h : iterate w s = .next t) :
    (w.flen.toNat ≤ w.off ∧ t = vadGoto (.process (.ivadWait w)) (postIvad (frameRequest w s.vad) s))
    ∨ (w.off < w.flen.toNat ∧ w.rem = 0 ∧ t = completeVad (processCommit w) s)
    ∨ (w.off < w.flen.toNat ∧ 0 < w.rem ∧ w.p % 4 = 0 ∧ w.p + 4 ≤ addressTop
        ∧ t = vadGoto (.process (.memWait w)) (postMem (BitVec.ofNat 32 w.p) s)) := by
  unfold iterate at h
  split at h
  · next h1 => exact .inl ⟨h1, next_inj.1 h⟩
  · next h1 =>
    split at h
    · next h2 => exact .inr (.inl ⟨Nat.lt_of_not_le h1, h2, next_inj.1 h⟩)
    · next h2 =>
      split at h
      · next h3 =>
        exact .inr (.inr ⟨Nat.lt_of_not_le h1, Nat.pos_of_ne_zero h2, h3.1, h3.2, next_inj.1 h⟩)
      · cases h

/-- A pass of the loop has a next state where the pointer is in R50's domain, or nothing is left to read. -/
theorem iterate_goes {w : ProcWork} (s : State) (hp : 0 < w.rem → w.p % 4 = 0 ∧ w.p + 4 ≤ addressTop) :
    ∃ t, iterate w s = .next t := by
  unfold iterate
  split
  · exact ⟨_, rfl⟩
  · split
    · exact ⟨_, rfl⟩
    · next h => rw [if_pos (hp (Nat.pos_of_ne_zero h))]; exact ⟨_, rfl⟩

theorem takeSample_cases {w : ProcWork} {word : Word} {s t : State} (h : takeSample w word s = .next t) :
    w.off < Config.rbCap ∧ iterate (workAfterSample w) (fillSample w word s) = .next t := by
  unfold takeSample at h
  split at h
  · next h1 => exact ⟨h1, h⟩
  · cases h

/-- A sample is taken in a step with a next state where its index is in RB and the pointer of the next read, if there
is one, is in R50's domain. -/
theorem takeSample_goes {w : ProcWork} (word : Word) (s : State) (ho : w.off < Config.rbCap)
    (hp : 0 < (workAfterSample w).rem →
      (workAfterSample w).p % 4 = 0 ∧ (workAfterSample w).p + 4 ≤ addressTop) :
    ∃ t, takeSample w word s = .next t := by
  unfold takeSample
  rw [if_pos ho]
  exact iterate_goes _ hp

/-- One step of VAD_PROCESS on its unit (43_vad_session.md R124): nothing, the failed rate check, a pass of the
iterator, a sample taken or a verdict taken. -/
theorem runVadProcess_cases {s t : State} (h : runVadProcess s = .next t) :
    t = s
    ∨ ∃ run, s.vad.run = some run ∧
      ((run.seq = .process .start ∧ rateCheck run.rateA s.vad = none ∧ t = completeVad rateFailCommit s)
      ∨ (∃ r f, run.seq = .process .start ∧ rateCheck run.rateA s.vad = some (r, f)
          ∧ iterate (startWork r f run s.vad) s = .next t)
      ∨ (∃ w, run.seq = .process (.loop w) ∧ iterate w s = .next t)
      ∨ (∃ w word, run.seq = .process (.memWait w) ∧ s.vad.memPort = .answered word
          ∧ takeSample w word s = .next t)
      ∨ (∃ w code, run.seq = .process (.ivadWait w) ∧ s.vad.ivadPort = .answered code
          ∧ t = takeVerdict w code s)) := by
  unfold runVadProcess at h
  split at h
  · exact .inl (next_inj.1 h)
  · next run hrun =>
    split at h
    · exact .inl (next_inj.1 h)
    · exact .inl (next_inj.1 h)
    · next hs =>
      split at h
      · next hc => exact .inr ⟨run, hrun, .inl ⟨hs, hc, next_inj.1 h⟩⟩
      · next r f hc => exact .inr ⟨run, hrun, .inr (.inl ⟨r, f, hs, hc, h⟩)⟩
    · next w hs => exact .inr ⟨run, hrun, .inr (.inr (.inl ⟨w, hs, h⟩))⟩
    · next w hs =>
      split at h
      · next word hp => exact .inr ⟨run, hrun, .inr (.inr (.inr (.inl ⟨w, word, hs, hp, h⟩)))⟩
      · exact .inl (next_inj.1 h)
      · exact .inl (next_inj.1 h)
    · next w hs =>
      split at h
      · next code hp =>
        exact .inr ⟨run, hrun, .inr (.inr (.inr (.inr ⟨w, code, hs, hp, next_inj.1 h⟩)))⟩
      · exact .inl (next_inj.1 h)
      · exact .inl (next_inj.1 h)

/-! ### MP3 commands -/

/-- One step of an MP3_DECODE_* on its unit (40_mp3_bootstrap.md R85 to R87): nothing, a call, an answer taken, or
`finish`. -/
theorem runDecode_cases {fmt : Fmt} {s t : State} (h : t = runDecode fmt s) :
    t = s
    ∨ ∃ run, s.mp3.run = some run ∧
      ((∃ b, run.seq = .decode fmt (.call b)
          ∧ t = mp3Goto (.decode fmt (.wait b)) (postIdec (decodeRequest fmt run b) s))
      ∨ (∃ b n hp, run.seq = .decode fmt (.wait b) ∧ s.mp3.idecPort = .answered (n, hp)
          ∧ t = takeAnswer fmt run b n hp s)
      ∨ (∃ b n, run.seq = .decode fmt (.finish b n) ∧ t = completeMp3 (decodeCommit run b n) s)) := by
  subst h
  unfold runDecode
  split
  · exact .inl rfl
  · next run hrun =>
    split
    · exact .inl rfl
    · next f pos hs =>
      split
      · next hf =>
        subst hf
        split
        · next b => exact .inr ⟨run, hrun, .inl ⟨b, hs, rfl⟩⟩
        · next b =>
          split
          · next n hp hport => exact .inr ⟨run, hrun, .inr (.inl ⟨b, n, hp, hs, hport, rfl⟩)⟩
          · exact .inl rfl
          · exact .inl rfl
        · next b n => exact .inr ⟨run, hrun, .inr (.inr ⟨b, n, hs, rfl⟩)⟩
      · exact .inl rfl

theorem runMp3Reset_cases {s t : State} (h : t = runMp3Reset s) :
    (∃ r, s.mp3.run = some r ∧ r.seq = .reset false ∧ t = mp3Goto (.reset true) (pulseIdec s))
    ∨ (∃ r, s.mp3.run = some r ∧ r.seq = .reset true ∧ t = completeMp3 resetCommit s)
    ∨ t = s := by
  subst h
  unfold runMp3Reset
  split
  · next h =>
    obtain ⟨r, hr, hq⟩ := Option.map_eq_some_iff.1 h
    exact .inl ⟨r, hr, hq, rfl⟩
  · next h =>
    obtain ⟨r, hr, hq⟩ := Option.map_eq_some_iff.1 h
    exact .inr (.inl ⟨r, hr, hq, rfl⟩)
  · exact .inr (.inr rfl)

/-! ### Any command -/

/-- A step of a VAD command: at the host's turn its acceptance procedure, at the unit's turn the command's next step,
else nothing (log 2). -/
theorem exec_vad_cases {i : Instr} (hi : i.unit = .vad) {s t : State} (h : exec i s = .next t) :
    (s.env.turn = .host ∧ ∃ seq check, t = issueVad seq check s
        ∧ ((seq = .init false ∧ check = none) ∨ (seq = .setmode ∧ check = none)
          ∨ (seq = .process .start ∧ check = checkProcessArgs s.vad.arg1 s.vad.arg2)))
    ∨ (s.env.turn = .vadUnit ∧ i = .vadInit ∧ t = runVadInit s)
    ∨ (s.env.turn = .vadUnit ∧ i = .vadSetmode ∧ t = runVadSetmode s)
    ∨ (s.env.turn = .vadUnit ∧ i = .vadProcess ∧ runVadProcess s = .next t)
    ∨ t = s := by
  cases i with
  | vadInit =>
    change execVadInit s = _ at h
    unfold execVadInit at h
    split at h
    · next ht => exact .inl ⟨ht, _, _, next_inj.1 h, .inl ⟨rfl, rfl⟩⟩
    · next ht => exact .inr (.inl ⟨ht, rfl, next_inj.1 h⟩)
    · exact .inr (.inr (.inr (.inr (next_inj.1 h))))
  | vadSetmode =>
    change execVadSetmode s = _ at h
    unfold execVadSetmode at h
    split at h
    · next ht => exact .inl ⟨ht, _, _, next_inj.1 h, .inr (.inl ⟨rfl, rfl⟩)⟩
    · next ht => exact .inr (.inr (.inl ⟨ht, rfl, next_inj.1 h⟩))
    · exact .inr (.inr (.inr (.inr (next_inj.1 h))))
  | vadProcess =>
    change execVadProcess s = _ at h
    unfold execVadProcess at h
    split at h
    · next ht => exact .inl ⟨ht, _, _, next_inj.1 h, .inr (.inr ⟨rfl, rfl⟩)⟩
    · next ht => exact .inr (.inr (.inr (.inl ⟨ht, rfl, h⟩)))
    · exact .inr (.inr (.inr (.inr (next_inj.1 h))))
  | mp3DecodeS16 => cases hi
  | mp3DecodeF32 => cases hi
  | mp3Reset => cases hi

/-- A step of an MP3 command: at the host's turn its acceptance procedure, at the unit's turn the command's next step,
else nothing (log 2). -/
theorem exec_mp3_cases {i : Instr} (hi : i.unit = .mp3) {s t : State} (h : exec i s = .next t) :
    (s.env.turn = .host ∧ ((∃ fmt, t = issueDecode fmt s) ∨ t = issueMp3 (.reset false) none s))
    ∨ (s.env.turn = .mp3Unit ∧ i = .mp3DecodeS16 ∧ t = runDecode .s16 s)
    ∨ (s.env.turn = .mp3Unit ∧ i = .mp3DecodeF32 ∧ t = runDecode .f32 s)
    ∨ (s.env.turn = .mp3Unit ∧ i = .mp3Reset ∧ t = runMp3Reset s)
    ∨ t = s := by
  cases i with
  | vadInit => cases hi
  | vadSetmode => cases hi
  | vadProcess => cases hi
  | mp3DecodeS16 =>
    change execMp3DecodeS16 s = _ at h
    unfold execMp3DecodeS16 at h
    split at h
    · next ht => exact .inl ⟨ht, .inl ⟨_, next_inj.1 h⟩⟩
    · next ht => exact .inr (.inl ⟨ht, rfl, next_inj.1 h⟩)
    · exact .inr (.inr (.inr (.inr (next_inj.1 h))))
  | mp3DecodeF32 =>
    change execMp3DecodeF32 s = _ at h
    unfold execMp3DecodeF32 at h
    split at h
    · next ht => exact .inl ⟨ht, .inl ⟨_, next_inj.1 h⟩⟩
    · next ht => exact .inr (.inr (.inl ⟨ht, rfl, next_inj.1 h⟩))
    · exact .inr (.inr (.inr (.inr (next_inj.1 h))))
  | mp3Reset =>
    change execMp3Reset s = _ at h
    unfold execMp3Reset at h
    split at h
    · next ht => exact .inl ⟨ht, .inr (next_inj.1 h)⟩
    · next ht => exact .inr (.inr (.inr (.inl ⟨ht, rfl, next_inj.1 h⟩)))
    · exact .inr (.inr (.inr (.inr (next_inj.1 h))))

/-! ### The external agents -/

/-- What host memory answers, where it answers (20_memory.md R50, R54): the state's only change is a free word used
up. -/
theorem memRead_cases {a : Word} {s s' : State} {w : Word} (h : memRead a s = some (w, s')) :
    (wordAt s.mem a.toNat = none ∧ Config.pMemRead a = some w ∧ s' = s)
    ∨ (wordAt s.mem a.toNat = some w ∧ unfixedBits s a.toNat = 0 ∧ s' = s)
    ∨ (∃ v, wordAt s.mem a.toNat = some v ∧ s' = drawn s
        ∧ w = (v &&& ~~~ unfixedBits s a.toNat) ||| (drawWord s &&& unfixedBits s a.toNat)) := by
  unfold memRead at h
  split at h
  · next hw =>
    obtain ⟨x, hx, he⟩ := Option.map_eq_some_iff.1 h
    injection he with h1 h2
    subst h1 h2
    exact .inl ⟨hw, hx, rfl⟩
  · next v hw =>
    split at h
    · next hu =>
      injection h with h; injection h with h1 h2
      subst h1 h2
      exact .inr (.inl ⟨hw, hu, rfl⟩)
    · injection h with h; injection h with h1 h2
      exact .inr (.inr ⟨v, hw, h2.symm, h1.symm⟩)

theorem memoryMove_cases (s : State) :
    memoryMove s = s
    ∨ ∃ a w s', s.vad.memPort = .pending a ∧ memRead a s = some (w, s')
        ∧ memoryMove s = { s' with vad := { s'.vad with memPort := .answered w } } := by
  unfold memoryMove
  split
  · exact .inl rfl
  · exact .inl rfl
  · next a ha =>
    split
    · exact .inl rfl
    · next w s' hm => exact .inr ⟨a, w, s', ha, hm, rfl⟩

theorem innerVadMove_cases (s : State) :
    innerVadMove s = s
    ∨ ∃ r code, s.vad.ivadPort = .pending r ∧ innerVadMove s = { s with
        vad := { s.vad with ivadPort := .answered code, ivadLog := .answer code :: s.vad.ivadLog }
        env := { s.env with ivadAnswers := s.env.ivadAnswers.tail } } := by
  unfold innerVadMove
  split
  · exact .inl rfl
  · exact .inl rfl
  · next r hr => exact .inr ⟨r, _, hr, rfl⟩

theorem innerDecoderMove_cases (s : State) :
    innerDecoderMove s = s
    ∨ ∃ r n hp ws, s.mp3.idecPort = .pending r ∧ innerDecoderMove s =
        { writeOutputs r.fmt r.left r.right ws s with
          mp3 := { s.mp3 with idecPort := .answered (n, hp), idecLog := .answer n hp :: s.mp3.idecLog }
          env := { s.env with idecAnswers := s.env.idecAnswers.tail } } := by
  unfold innerDecoderMove
  split
  · exact .inl rfl
  · exact .inl rfl
  · next r hr =>
    refine .inr ⟨r, (s.env.idecAnswers.headD (Config.idec s.mp3.idecLog r)).n,
      (s.env.idecAnswers.headD (Config.idec s.mp3.idecLog r)).hp,
      (s.env.idecAnswers.headD (Config.idec s.mp3.idecLog r)).writes, hr, ?_⟩
    dsimp only
    rw [(writeOutputs_rest _ _ _ _ s).2.1, (writeOutputs_rest _ _ _ _ s).2.2.2.2]

end Sys2Proof.Machine
end

