-- ==== Sys2Proof/Laws/PerInstr.lean ====
section
/-! SUPPORT. What holds of every command as syntax, one lemma per constructor. -/

namespace Sys2Proof.Laws.TableRow

/-- The row of spec/opcode_table.json that a command's encoding is: the offset of its command register and its word,
all 32 bits fixed (30_encoding.md R70). -/
def row : Instr → Nat × Nat
  | .vadInit => (0x000, 0x00000001)
  | .vadSetmode => (0x000, 0x00000002)
  | .vadProcess => (0x000, 0x00000003)
  | .mp3DecodeS16 => (0x040, 0x00000001)
  | .mp3DecodeF32 => (0x040, 0x00000002)
  | .mp3Reset => (0x040, 0x00000003)

/-- A command is well formed, its encoding is its row of the table, and the row's transaction decodes to it. -/
def Statement (i : Instr) : Prop :=
  i.wellFormed = true
    ∧ (i.unit.cmdReg.offset, (encode i).toNat) = row i
    ∧ decodeIssue (row i).1 (BitVec.ofNat 32 (row i).2) = some i
    ∧ decodeTableWord 64 (encodeIssue i) = some i

theorem vadInit : Statement .vadInit := by unfold Statement; decide
theorem vadSetmode : Statement .vadSetmode := by unfold Statement; decide
theorem vadProcess : Statement .vadProcess := by unfold Statement; decide
theorem mp3DecodeS16 : Statement .mp3DecodeS16 := by unfold Statement; decide
theorem mp3DecodeF32 : Statement .mp3DecodeF32 := by unfold Statement; decide
theorem mp3Reset : Statement .mp3Reset := by unfold Statement; decide

end Sys2Proof.Laws.TableRow
end

