-- ==== Sys2Proof/Laws/State.lean ====
section
/-! SUPPORT. One lemma per field per update of the state, so that no proof unfolds a record update. -/

namespace Sys2Proof.Machine

/-! ### rejectVad -/

@[simp] theorem rejectVad_mp3 (c : Cause) (s : State) : (reject .vad c s).mp3 = s.mp3 := rfl
@[simp] theorem rejectVad_irqEnable (c : Cause) (s : State) : (reject .vad c s).irqEnable = s.irqEnable := rfl
@[simp] theorem rejectVad_mem (c : Cause) (s : State) : (reject .vad c s).mem = s.mem := rfl
@[simp] theorem rejectVad_race (c : Cause) (s : State) : (reject .vad c s).race = s.race := rfl
@[simp] theorem rejectVad_stale (c : Cause) (s : State) : (reject .vad c s).stale = s.stale := rfl
@[simp] theorem rejectVad_env (c : Cause) (s : State) : (reject .vad c s).env = s.env := rfl
@[simp] theorem rejectVad_vad_done (c : Cause) (s : State) : (reject .vad c s).vad.done = s.vad.done := rfl
@[simp] theorem rejectVad_vad_cmdErr (c : Cause) (s : State) : (reject .vad c s).vad.cmdErr = true := rfl
@[simp] theorem rejectVad_vad_overrun (c : Cause) (s : State) : (reject .vad c s).vad.overrun = s.vad.overrun := rfl
@[simp] theorem rejectVad_vad_errCause (c : Cause) (s : State) : (reject .vad c s).vad.errCause = c := rfl
@[simp] theorem rejectVad_vad_rateReject (c : Cause) (s : State) :
    (reject .vad c s).vad.rateReject = s.vad.rateReject := rfl
@[simp] theorem rejectVad_vad_arg0 (c : Cause) (s : State) : (reject .vad c s).vad.arg0 = s.vad.arg0 := rfl
@[simp] theorem rejectVad_vad_arg1 (c : Cause) (s : State) : (reject .vad c s).vad.arg1 = s.vad.arg1 := rfl
@[simp] theorem rejectVad_vad_arg2 (c : Cause) (s : State) : (reject .vad c s).vad.arg2 = s.vad.arg2 := rfl
@[simp] theorem rejectVad_vad_result (c : Cause) (s : State) : (reject .vad c s).vad.result = s.vad.result := rfl
@[simp] theorem rejectVad_vad_rate (c : Cause) (s : State) : (reject .vad c s).vad.rate = s.vad.rate := rfl
@[simp] theorem rejectVad_vad_flen (c : Cause) (s : State) : (reject .vad c s).vad.flen = s.vad.flen := rfl
@[simp] theorem rejectVad_vad_off (c : Cause) (s : State) : (reject .vad c s).vad.off = s.vad.off := rfl
@[simp] theorem rejectVad_vad_mode (c : Cause) (s : State) : (reject .vad c s).vad.mode = s.vad.mode := rfl
@[simp] theorem rejectVad_vad_hist (c : Cause) (s : State) : (reject .vad c s).vad.hist = s.vad.hist := rfl
@[simp] theorem rejectVad_vad_rb (c : Cause) (s : State) : (reject .vad c s).vad.rb = s.vad.rb := rfl
@[simp] theorem rejectVad_vad_rbEpoch (c : Cause) (s : State) : (reject .vad c s).vad.rbEpoch = s.vad.rbEpoch := rfl
@[simp] theorem rejectVad_vad_run (c : Cause) (s : State) : (reject .vad c s).vad.run = s.vad.run := rfl
@[simp] theorem rejectVad_vad_memPort (c : Cause) (s : State) : (reject .vad c s).vad.memPort = s.vad.memPort := rfl
@[simp] theorem rejectVad_vad_memLog (c : Cause) (s : State) : (reject .vad c s).vad.memLog = s.vad.memLog := rfl
@[simp] theorem rejectVad_vad_ivadPort (c : Cause) (s : State) :
    (reject .vad c s).vad.ivadPort = s.vad.ivadPort := rfl
@[simp] theorem rejectVad_vad_ivadLog (c : Cause) (s : State) : (reject .vad c s).vad.ivadLog = s.vad.ivadLog := rfl

/-! ### rejectMp3 -/

@[simp] theorem rejectMp3_vad (c : Cause) (s : State) : (reject .mp3 c s).vad = s.vad := rfl
@[simp] theorem rejectMp3_irqEnable (c : Cause) (s : State) : (reject .mp3 c s).irqEnable = s.irqEnable := rfl
@[simp] theorem rejectMp3_mem (c : Cause) (s : State) : (reject .mp3 c s).mem = s.mem := rfl
@[simp] theorem rejectMp3_race (c : Cause) (s : State) : (reject .mp3 c s).race = s.race := rfl
@[simp] theorem rejectMp3_stale (c : Cause) (s : State) : (reject .mp3 c s).stale = s.stale := rfl
@[simp] theorem rejectMp3_env (c : Cause) (s : State) : (reject .mp3 c s).env = s.env := rfl
@[simp] theorem rejectMp3_mp3_done (c : Cause) (s : State) : (reject .mp3 c s).mp3.done = s.mp3.done := rfl
@[simp] theorem rejectMp3_mp3_cmdErr (c : Cause) (s : State) : (reject .mp3 c s).mp3.cmdErr = true := rfl
@[simp] theorem rejectMp3_mp3_overrun (c : Cause) (s : State) : (reject .mp3 c s).mp3.overrun = s.mp3.overrun := rfl
@[simp] theorem rejectMp3_mp3_errCause (c : Cause) (s : State) : (reject .mp3 c s).mp3.errCause = c := rfl
@[simp] theorem rejectMp3_mp3_error (c : Cause) (s : State) : (reject .mp3 c s).mp3.error = s.mp3.error := rfl
@[simp] theorem rejectMp3_mp3_needMore (c : Cause) (s : State) :
    (reject .mp3 c s).mp3.needMore = s.mp3.needMore := rfl
@[simp] theorem rejectMp3_mp3_arg0 (c : Cause) (s : State) : (reject .mp3 c s).mp3.arg0 = s.mp3.arg0 := rfl
@[simp] theorem rejectMp3_mp3_arg1 (c : Cause) (s : State) : (reject .mp3 c s).mp3.arg1 = s.mp3.arg1 := rfl
@[simp] theorem rejectMp3_mp3_arg2 (c : Cause) (s : State) : (reject .mp3 c s).mp3.arg2 = s.mp3.arg2 := rfl
@[simp] theorem rejectMp3_mp3_arg3 (c : Cause) (s : State) : (reject .mp3 c s).mp3.arg3 = s.mp3.arg3 := rfl
@[simp] theorem rejectMp3_mp3_n (c : Cause) (s : State) : (reject .mp3 c s).mp3.n = s.mp3.n := rfl
@[simp] theorem rejectMp3_mp3_samples (c : Cause) (s : State) : (reject .mp3 c s).mp3.samples = s.mp3.samples := rfl
@[simp] theorem rejectMp3_mp3_trace (c : Cause) (s : State) : (reject .mp3 c s).mp3.trace = s.mp3.trace := rfl
@[simp] theorem rejectMp3_mp3_run (c : Cause) (s : State) : (reject .mp3 c s).mp3.run = s.mp3.run := rfl
@[simp] theorem rejectMp3_mp3_idecPort (c : Cause) (s : State) :
    (reject .mp3 c s).mp3.idecPort = s.mp3.idecPort := rfl
@[simp] theorem rejectMp3_mp3_idecLog (c : Cause) (s : State) : (reject .mp3 c s).mp3.idecLog = s.mp3.idecLog := rfl

/-! ### overrunVad -/

@[simp] theorem overrunVad_mp3 (s : State) : (overrun .vad s).mp3 = s.mp3 := rfl
@[simp] theorem overrunVad_irqEnable (s : State) : (overrun .vad s).irqEnable = s.irqEnable := rfl
@[simp] theorem overrunVad_mem (s : State) : (overrun .vad s).mem = s.mem := rfl
@[simp] theorem overrunVad_race (s : State) : (overrun .vad s).race = s.race := rfl
@[simp] theorem overrunVad_stale (s : State) : (overrun .vad s).stale = s.stale := rfl
@[simp] theorem overrunVad_env (s : State) : (overrun .vad s).env = s.env := rfl
@[simp] theorem overrunVad_vad_done (s : State) : (overrun .vad s).vad.done = s.vad.done := rfl
@[simp] theorem overrunVad_vad_cmdErr (s : State) : (overrun .vad s).vad.cmdErr = s.vad.cmdErr := rfl
@[simp] theorem overrunVad_vad_overrun (s : State) : (overrun .vad s).vad.overrun = true := rfl
@[simp] theorem overrunVad_vad_errCause (s : State) : (overrun .vad s).vad.errCause = s.vad.errCause := rfl
@[simp] theorem overrunVad_vad_rateReject (s : State) : (overrun .vad s).vad.rateReject = s.vad.rateReject := rfl
@[simp] theorem overrunVad_vad_arg0 (s : State) : (overrun .vad s).vad.arg0 = s.vad.arg0 := rfl
@[simp] theorem overrunVad_vad_arg1 (s : State) : (overrun .vad s).vad.arg1 = s.vad.arg1 := rfl
@[simp] theorem overrunVad_vad_arg2 (s : State) : (overrun .vad s).vad.arg2 = s.vad.arg2 := rfl
@[simp] theorem overrunVad_vad_result (s : State) : (overrun .vad s).vad.result = s.vad.result := rfl
@[simp] theorem overrunVad_vad_rate (s : State) : (overrun .vad s).vad.rate = s.vad.rate := rfl
@[simp] theorem overrunVad_vad_flen (s : State) : (overrun .vad s).vad.flen = s.vad.flen := rfl
@[simp] theorem overrunVad_vad_off (s : State) : (overrun .vad s).vad.off = s.vad.off := rfl
@[simp] theorem overrunVad_vad_mode (s : State) : (overrun .vad s).vad.mode = s.vad.mode := rfl
@[simp] theorem overrunVad_vad_hist (s : State) : (overrun .vad s).vad.hist = s.vad.hist := rfl
@[simp] theorem overrunVad_vad_rb (s : State) : (overrun .vad s).vad.rb = s.vad.rb := rfl
@[simp] theorem overrunVad_vad_rbEpoch (s : State) : (overrun .vad s).vad.rbEpoch = s.vad.rbEpoch := rfl
@[simp] theorem overrunVad_vad_run (s : State) : (overrun .vad s).vad.run = s.vad.run := rfl
@[simp] theorem overrunVad_vad_memPort (s : State) : (overrun .vad s).vad.memPort = s.vad.memPort := rfl
@[simp] theorem overrunVad_vad_memLog (s : State) : (overrun .vad s).vad.memLog = s.vad.memLog := rfl
@[simp] theorem overrunVad_vad_ivadPort (s : State) : (overrun .vad s).vad.ivadPort = s.vad.ivadPort := rfl
@[simp] theorem overrunVad_vad_ivadLog (s : State) : (overrun .vad s).vad.ivadLog = s.vad.ivadLog := rfl

/-! ### overrunMp3 -/

@[simp] theorem overrunMp3_vad (s : State) : (overrun .mp3 s).vad = s.vad := rfl
@[simp] theorem overrunMp3_irqEnable (s : State) : (overrun .mp3 s).irqEnable = s.irqEnable := rfl
@[simp] theorem overrunMp3_mem (s : State) : (overrun .mp3 s).mem = s.mem := rfl
@[simp] theorem overrunMp3_race (s : State) : (overrun .mp3 s).race = s.race := rfl
@[simp] theorem overrunMp3_stale (s : State) : (overrun .mp3 s).stale = s.stale := rfl
@[simp] theorem overrunMp3_env (s : State) : (overrun .mp3 s).env = s.env := rfl
@[simp] theorem overrunMp3_mp3_done (s : State) : (overrun .mp3 s).mp3.done = s.mp3.done := rfl
@[simp] theorem overrunMp3_mp3_cmdErr (s : State) : (overrun .mp3 s).mp3.cmdErr = s.mp3.cmdErr := rfl
@[simp] theorem overrunMp3_mp3_overrun (s : State) : (overrun .mp3 s).mp3.overrun = true := rfl
@[simp] theorem overrunMp3_mp3_errCause (s : State) : (overrun .mp3 s).mp3.errCause = s.mp3.errCause := rfl
@[simp] theorem overrunMp3_mp3_error (s : State) : (overrun .mp3 s).mp3.error = s.mp3.error := rfl
@[simp] theorem overrunMp3_mp3_needMore (s : State) : (overrun .mp3 s).mp3.needMore = s.mp3.needMore := rfl
@[simp] theorem overrunMp3_mp3_arg0 (s : State) : (overrun .mp3 s).mp3.arg0 = s.mp3.arg0 := rfl
@[simp] theorem overrunMp3_mp3_arg1 (s : State) : (overrun .mp3 s).mp3.arg1 = s.mp3.arg1 := rfl
@[simp] theorem overrunMp3_mp3_arg2 (s : State) : (overrun .mp3 s).mp3.arg2 = s.mp3.arg2 := rfl
@[simp] theorem overrunMp3_mp3_arg3 (s : State) : (overrun .mp3 s).mp3.arg3 = s.mp3.arg3 := rfl
@[simp] theorem overrunMp3_mp3_n (s : State) : (overrun .mp3 s).mp3.n = s.mp3.n := rfl
@[simp] theorem overrunMp3_mp3_samples (s : State) : (overrun .mp3 s).mp3.samples = s.mp3.samples := rfl
@[simp] theorem overrunMp3_mp3_trace (s : State) : (overrun .mp3 s).mp3.trace = s.mp3.trace := rfl
@[simp] theorem overrunMp3_mp3_run (s : State) : (overrun .mp3 s).mp3.run = s.mp3.run := rfl
@[simp] theorem overrunMp3_mp3_idecPort (s : State) : (overrun .mp3 s).mp3.idecPort = s.mp3.idecPort := rfl
@[simp] theorem overrunMp3_mp3_idecLog (s : State) : (overrun .mp3 s).mp3.idecLog = s.mp3.idecLog := rfl

/-! ### acceptVad -/

@[simp] theorem acceptVad_mp3 (q : VadSeq) (s : State) : (acceptVad q s).mp3 = s.mp3 := rfl
@[simp] theorem acceptVad_irqEnable (q : VadSeq) (s : State) : (acceptVad q s).irqEnable = s.irqEnable := rfl
@[simp] theorem acceptVad_mem (q : VadSeq) (s : State) : (acceptVad q s).mem = s.mem := rfl
@[simp] theorem acceptVad_race (q : VadSeq) (s : State) : (acceptVad q s).race = [] := rfl
@[simp] theorem acceptVad_stale (q : VadSeq) (s : State) : (acceptVad q s).stale = s.stale := rfl
@[simp] theorem acceptVad_env (q : VadSeq) (s : State) : (acceptVad q s).env = s.env := rfl
@[simp] theorem acceptVad_vad_done (q : VadSeq) (s : State) : (acceptVad q s).vad.done = false := rfl
@[simp] theorem acceptVad_vad_cmdErr (q : VadSeq) (s : State) : (acceptVad q s).vad.cmdErr = s.vad.cmdErr := rfl
@[simp] theorem acceptVad_vad_overrun (q : VadSeq) (s : State) : (acceptVad q s).vad.overrun = s.vad.overrun := rfl
@[simp] theorem acceptVad_vad_errCause (q : VadSeq) (s : State) : (acceptVad q s).vad.errCause = s.vad.errCause := rfl
@[simp] theorem acceptVad_vad_rateReject (q : VadSeq) (s : State) :
    (acceptVad q s).vad.rateReject = s.vad.rateReject := rfl
@[simp] theorem acceptVad_vad_arg0 (q : VadSeq) (s : State) : (acceptVad q s).vad.arg0 = s.vad.arg0 := rfl
@[simp] theorem acceptVad_vad_arg1 (q : VadSeq) (s : State) : (acceptVad q s).vad.arg1 = s.vad.arg1 := rfl
@[simp] theorem acceptVad_vad_arg2 (q : VadSeq) (s : State) : (acceptVad q s).vad.arg2 = s.vad.arg2 := rfl
@[simp] theorem acceptVad_vad_result (q : VadSeq) (s : State) : (acceptVad q s).vad.result = s.vad.result := rfl
@[simp] theorem acceptVad_vad_rate (q : VadSeq) (s : State) : (acceptVad q s).vad.rate = s.vad.rate := rfl
@[simp] theorem acceptVad_vad_flen (q : VadSeq) (s : State) : (acceptVad q s).vad.flen = s.vad.flen := rfl
@[simp] theorem acceptVad_vad_off (q : VadSeq) (s : State) : (acceptVad q s).vad.off = s.vad.off := rfl
@[simp] theorem acceptVad_vad_mode (q : VadSeq) (s : State) : (acceptVad q s).vad.mode = s.vad.mode := rfl
@[simp] theorem acceptVad_vad_hist (q : VadSeq) (s : State) : (acceptVad q s).vad.hist = s.vad.hist := rfl
@[simp] theorem acceptVad_vad_rb (q : VadSeq) (s : State) : (acceptVad q s).vad.rb = s.vad.rb := rfl
@[simp] theorem acceptVad_vad_rbEpoch (q : VadSeq) (s : State) : (acceptVad q s).vad.rbEpoch = s.vad.rbEpoch := rfl
@[simp] theorem acceptVad_vad_run (q : VadSeq) (s : State) :
    (acceptVad q s).vad.run = some { rateA := s.vad.arg0, addrA := s.vad.arg1, blenA := s.vad.arg2, seq := q } := rfl
@[simp] theorem acceptVad_vad_memPort (q : VadSeq) (s : State) : (acceptVad q s).vad.memPort = s.vad.memPort := rfl
@[simp] theorem acceptVad_vad_memLog (q : VadSeq) (s : State) : (acceptVad q s).vad.memLog = [] := rfl
@[simp] theorem acceptVad_vad_ivadPort (q : VadSeq) (s : State) : (acceptVad q s).vad.ivadPort = s.vad.ivadPort := rfl
@[simp] theorem acceptVad_vad_ivadLog (q : VadSeq) (s : State) : (acceptVad q s).vad.ivadLog = s.vad.ivadLog := rfl

/-! ### acceptMp3 -/

@[simp] theorem acceptMp3_vad (q : Mp3Seq) (s : State) : (acceptMp3 q s).vad = s.vad := rfl
@[simp] theorem acceptMp3_irqEnable (q : Mp3Seq) (s : State) : (acceptMp3 q s).irqEnable = s.irqEnable := rfl
@[simp] theorem acceptMp3_mem (q : Mp3Seq) (s : State) : (acceptMp3 q s).mem = s.mem := rfl
@[simp] theorem acceptMp3_race (q : Mp3Seq) (s : State) : (acceptMp3 q s).race = s.race := rfl
@[simp] theorem acceptMp3_stale (q : Mp3Seq) (s : State) : (acceptMp3 q s).stale = s.stale := rfl
@[simp] theorem acceptMp3_env (q : Mp3Seq) (s : State) : (acceptMp3 q s).env = s.env := rfl
@[simp] theorem acceptMp3_mp3_done (q : Mp3Seq) (s : State) : (acceptMp3 q s).mp3.done = false := rfl
@[simp] theorem acceptMp3_mp3_cmdErr (q : Mp3Seq) (s : State) : (acceptMp3 q s).mp3.cmdErr = s.mp3.cmdErr := rfl
@[simp] theorem acceptMp3_mp3_overrun (q : Mp3Seq) (s : State) : (acceptMp3 q s).mp3.overrun = s.mp3.overrun := rfl
@[simp] theorem acceptMp3_mp3_errCause (q : Mp3Seq) (s : State) : (acceptMp3 q s).mp3.errCause = s.mp3.errCause := rfl
@[simp] theorem acceptMp3_mp3_error (q : Mp3Seq) (s : State) : (acceptMp3 q s).mp3.error = s.mp3.error := rfl
@[simp] theorem acceptMp3_mp3_needMore (q : Mp3Seq) (s : State) : (acceptMp3 q s).mp3.needMore = s.mp3.needMore := rfl
@[simp] theorem acceptMp3_mp3_arg0 (q : Mp3Seq) (s : State) : (acceptMp3 q s).mp3.arg0 = s.mp3.arg0 := rfl
@[simp] theorem acceptMp3_mp3_arg1 (q : Mp3Seq) (s : State) : (acceptMp3 q s).mp3.arg1 = s.mp3.arg1 := rfl
@[simp] theorem acceptMp3_mp3_arg2 (q : Mp3Seq) (s : State) : (acceptMp3 q s).mp3.arg2 = s.mp3.arg2 := rfl
@[simp] theorem acceptMp3_mp3_arg3 (q : Mp3Seq) (s : State) : (acceptMp3 q s).mp3.arg3 = s.mp3.arg3 := rfl
@[simp] theorem acceptMp3_mp3_n (q : Mp3Seq) (s : State) : (acceptMp3 q s).mp3.n = s.mp3.n := rfl
@[simp] theorem acceptMp3_mp3_samples (q : Mp3Seq) (s : State) : (acceptMp3 q s).mp3.samples = s.mp3.samples := rfl
@[simp] theorem acceptMp3_mp3_trace (q : Mp3Seq) (s : State) : (acceptMp3 q s).mp3.trace = s.mp3.trace := rfl
@[simp] theorem acceptMp3_mp3_run (q : Mp3Seq) (s : State) :
    (acceptMp3 q s).mp3.run = some { inA := s.mp3.arg0, lenA := s.mp3.arg1, leftA := s.mp3.arg2, rightA := s.mp3.arg3, seq := q } := rfl
@[simp] theorem acceptMp3_mp3_idecPort (q : Mp3Seq) (s : State) : (acceptMp3 q s).mp3.idecPort = s.mp3.idecPort := rfl
@[simp] theorem acceptMp3_mp3_idecLog (q : Mp3Seq) (s : State) : (acceptMp3 q s).mp3.idecLog = s.mp3.idecLog := rfl

/-! ### completeVad -/

@[simp] theorem completeVad_mp3 (c : VadCommit) (s : State) : (completeVad c s).mp3 = s.mp3 := rfl
@[simp] theorem completeVad_irqEnable (c : VadCommit) (s : State) : (completeVad c s).irqEnable = s.irqEnable := rfl
@[simp] theorem completeVad_mem (c : VadCommit) (s : State) : (completeVad c s).mem = s.mem := rfl
@[simp] theorem completeVad_race (c : VadCommit) (s : State) : (completeVad c s).race = s.race := rfl
@[simp] theorem completeVad_stale (c : VadCommit) (s : State) : (completeVad c s).stale = s.stale := rfl
@[simp] theorem completeVad_env (c : VadCommit) (s : State) : (completeVad c s).env = s.env := rfl
@[simp] theorem completeVad_vad_done (c : VadCommit) (s : State) : (completeVad c s).vad.done = true := rfl
@[simp] theorem completeVad_vad_cmdErr (c : VadCommit) (s : State) :
    (completeVad c s).vad.cmdErr = s.vad.cmdErr := rfl
@[simp] theorem completeVad_vad_overrun (c : VadCommit) (s : State) :
    (completeVad c s).vad.overrun = s.vad.overrun := rfl
@[simp] theorem completeVad_vad_errCause (c : VadCommit) (s : State) :
    (completeVad c s).vad.errCause = s.vad.errCause := rfl
@[simp] theorem completeVad_vad_rateReject (c : VadCommit) (s : State) :
    (completeVad c s).vad.rateReject = c.rateReject := rfl
@[simp] theorem completeVad_vad_arg0 (c : VadCommit) (s : State) : (completeVad c s).vad.arg0 = s.vad.arg0 := rfl
@[simp] theorem completeVad_vad_arg1 (c : VadCommit) (s : State) : (completeVad c s).vad.arg1 = s.vad.arg1 := rfl
@[simp] theorem completeVad_vad_arg2 (c : VadCommit) (s : State) : (completeVad c s).vad.arg2 = s.vad.arg2 := rfl
@[simp] theorem completeVad_vad_result (c : VadCommit) (s : State) : (completeVad c s).vad.result = c.result := rfl
@[simp] theorem completeVad_vad_rate (c : VadCommit) (s : State) :
    (completeVad c s).vad.rate = (c.session.map Session.rate).getD s.vad.rate := rfl
@[simp] theorem completeVad_vad_flen (c : VadCommit) (s : State) :
    (completeVad c s).vad.flen = (c.session.map Session.flen).getD s.vad.flen := rfl
@[simp] theorem completeVad_vad_off (c : VadCommit) (s : State) :
    (completeVad c s).vad.off = (c.session.map Session.off).getD s.vad.off := rfl
@[simp] theorem completeVad_vad_mode (c : VadCommit) (s : State) :
    (completeVad c s).vad.mode = c.mode.getD s.vad.mode := rfl
@[simp] theorem completeVad_vad_hist (c : VadCommit) (s : State) :
    (completeVad c s).vad.hist = c.hist.getD s.vad.hist := rfl
@[simp] theorem completeVad_vad_rb (c : VadCommit) (s : State) : (completeVad c s).vad.rb = s.vad.rb := rfl
@[simp] theorem completeVad_vad_rbEpoch (c : VadCommit) (s : State) :
    (completeVad c s).vad.rbEpoch = s.vad.rbEpoch := rfl
@[simp] theorem completeVad_vad_run (c : VadCommit) (s : State) : (completeVad c s).vad.run = none := rfl
@[simp] theorem completeVad_vad_memPort (c : VadCommit) (s : State) :
    (completeVad c s).vad.memPort = s.vad.memPort := rfl
@[simp] theorem completeVad_vad_memLog (c : VadCommit) (s : State) :
    (completeVad c s).vad.memLog = s.vad.memLog := rfl
@[simp] theorem completeVad_vad_ivadPort (c : VadCommit) (s : State) :
    (completeVad c s).vad.ivadPort = s.vad.ivadPort := rfl
@[simp] theorem completeVad_vad_ivadLog (c : VadCommit) (s : State) :
    (completeVad c s).vad.ivadLog = s.vad.ivadLog := rfl

/-! ### completeMp3 -/

@[simp] theorem completeMp3_vad (c : Mp3Commit) (s : State) : (completeMp3 c s).vad = s.vad := rfl
@[simp] theorem completeMp3_irqEnable (c : Mp3Commit) (s : State) : (completeMp3 c s).irqEnable = s.irqEnable := rfl
@[simp] theorem completeMp3_mem (c : Mp3Commit) (s : State) : (completeMp3 c s).mem = s.mem := rfl
@[simp] theorem completeMp3_race (c : Mp3Commit) (s : State) : (completeMp3 c s).race = s.race := rfl
@[simp] theorem completeMp3_stale (c : Mp3Commit) (s : State) : (completeMp3 c s).stale = s.stale := rfl
@[simp] theorem completeMp3_env (c : Mp3Commit) (s : State) : (completeMp3 c s).env = s.env := rfl
@[simp] theorem completeMp3_mp3_done (c : Mp3Commit) (s : State) : (completeMp3 c s).mp3.done = true := rfl
@[simp] theorem completeMp3_mp3_cmdErr (c : Mp3Commit) (s : State) :
    (completeMp3 c s).mp3.cmdErr = s.mp3.cmdErr := rfl
@[simp] theorem completeMp3_mp3_overrun (c : Mp3Commit) (s : State) :
    (completeMp3 c s).mp3.overrun = s.mp3.overrun := rfl
@[simp] theorem completeMp3_mp3_errCause (c : Mp3Commit) (s : State) :
    (completeMp3 c s).mp3.errCause = s.mp3.errCause := rfl
@[simp] theorem completeMp3_mp3_error (c : Mp3Commit) (s : State) : (completeMp3 c s).mp3.error = c.error := rfl
@[simp] theorem completeMp3_mp3_needMore (c : Mp3Commit) (s : State) :
    (completeMp3 c s).mp3.needMore = c.needMore := rfl
@[simp] theorem completeMp3_mp3_arg0 (c : Mp3Commit) (s : State) : (completeMp3 c s).mp3.arg0 = s.mp3.arg0 := rfl
@[simp] theorem completeMp3_mp3_arg1 (c : Mp3Commit) (s : State) : (completeMp3 c s).mp3.arg1 = s.mp3.arg1 := rfl
@[simp] theorem completeMp3_mp3_arg2 (c : Mp3Commit) (s : State) : (completeMp3 c s).mp3.arg2 = s.mp3.arg2 := rfl
@[simp] theorem completeMp3_mp3_arg3 (c : Mp3Commit) (s : State) : (completeMp3 c s).mp3.arg3 = s.mp3.arg3 := rfl
@[simp] theorem completeMp3_mp3_n (c : Mp3Commit) (s : State) : (completeMp3 c s).mp3.n = c.n := rfl
@[simp] theorem completeMp3_mp3_samples (c : Mp3Commit) (s : State) : (completeMp3 c s).mp3.samples = c.samples := rfl
@[simp] theorem completeMp3_mp3_trace (c : Mp3Commit) (s : State) : (completeMp3 c s).mp3.trace = c.trace := rfl
@[simp] theorem completeMp3_mp3_run (c : Mp3Commit) (s : State) : (completeMp3 c s).mp3.run = none := rfl
@[simp] theorem completeMp3_mp3_idecPort (c : Mp3Commit) (s : State) :
    (completeMp3 c s).mp3.idecPort = s.mp3.idecPort := rfl
@[simp] theorem completeMp3_mp3_idecLog (c : Mp3Commit) (s : State) :
    (completeMp3 c s).mp3.idecLog = s.mp3.idecLog := rfl

/-! ### vadGoto -/

@[simp] theorem vadGoto_mp3 (q : VadSeq) (s : State) : (vadGoto q s).mp3 = s.mp3 := rfl
@[simp] theorem vadGoto_irqEnable (q : VadSeq) (s : State) : (vadGoto q s).irqEnable = s.irqEnable := rfl
@[simp] theorem vadGoto_mem (q : VadSeq) (s : State) : (vadGoto q s).mem = s.mem := rfl
@[simp] theorem vadGoto_race (q : VadSeq) (s : State) : (vadGoto q s).race = s.race := rfl
@[simp] theorem vadGoto_stale (q : VadSeq) (s : State) : (vadGoto q s).stale = s.stale := rfl
@[simp] theorem vadGoto_env (q : VadSeq) (s : State) : (vadGoto q s).env = s.env := rfl
@[simp] theorem vadGoto_vad_done (q : VadSeq) (s : State) : (vadGoto q s).vad.done = s.vad.done := rfl
@[simp] theorem vadGoto_vad_cmdErr (q : VadSeq) (s : State) : (vadGoto q s).vad.cmdErr = s.vad.cmdErr := rfl
@[simp] theorem vadGoto_vad_overrun (q : VadSeq) (s : State) : (vadGoto q s).vad.overrun = s.vad.overrun := rfl
@[simp] theorem vadGoto_vad_errCause (q : VadSeq) (s : State) : (vadGoto q s).vad.errCause = s.vad.errCause := rfl
@[simp] theorem vadGoto_vad_rateReject (q : VadSeq) (s : State) :
    (vadGoto q s).vad.rateReject = s.vad.rateReject := rfl
@[simp] theorem vadGoto_vad_arg0 (q : VadSeq) (s : State) : (vadGoto q s).vad.arg0 = s.vad.arg0 := rfl
@[simp] theorem vadGoto_vad_arg1 (q : VadSeq) (s : State) : (vadGoto q s).vad.arg1 = s.vad.arg1 := rfl
@[simp] theorem vadGoto_vad_arg2 (q : VadSeq) (s : State) : (vadGoto q s).vad.arg2 = s.vad.arg2 := rfl
@[simp] theorem vadGoto_vad_result (q : VadSeq) (s : State) : (vadGoto q s).vad.result = s.vad.result := rfl
@[simp] theorem vadGoto_vad_rate (q : VadSeq) (s : State) : (vadGoto q s).vad.rate = s.vad.rate := rfl
@[simp] theorem vadGoto_vad_flen (q : VadSeq) (s : State) : (vadGoto q s).vad.flen = s.vad.flen := rfl
@[simp] theorem vadGoto_vad_off (q : VadSeq) (s : State) : (vadGoto q s).vad.off = s.vad.off := rfl
@[simp] theorem vadGoto_vad_mode (q : VadSeq) (s : State) : (vadGoto q s).vad.mode = s.vad.mode := rfl
@[simp] theorem vadGoto_vad_hist (q : VadSeq) (s : State) : (vadGoto q s).vad.hist = s.vad.hist := rfl
@[simp] theorem vadGoto_vad_rb (q : VadSeq) (s : State) : (vadGoto q s).vad.rb = s.vad.rb := rfl
@[simp] theorem vadGoto_vad_rbEpoch (q : VadSeq) (s : State) : (vadGoto q s).vad.rbEpoch = s.vad.rbEpoch := rfl
@[simp] theorem vadGoto_vad_run (q : VadSeq) (s : State) :
    (vadGoto q s).vad.run = s.vad.run.map (fun r => { r with seq := q }) := rfl
@[simp] theorem vadGoto_vad_memPort (q : VadSeq) (s : State) : (vadGoto q s).vad.memPort = s.vad.memPort := rfl
@[simp] theorem vadGoto_vad_memLog (q : VadSeq) (s : State) : (vadGoto q s).vad.memLog = s.vad.memLog := rfl
@[simp] theorem vadGoto_vad_ivadPort (q : VadSeq) (s : State) : (vadGoto q s).vad.ivadPort = s.vad.ivadPort := rfl
@[simp] theorem vadGoto_vad_ivadLog (q : VadSeq) (s : State) : (vadGoto q s).vad.ivadLog = s.vad.ivadLog := rfl

/-! ### mp3Goto -/

@[simp] theorem mp3Goto_vad (q : Mp3Seq) (s : State) : (mp3Goto q s).vad = s.vad := rfl
@[simp] theorem mp3Goto_irqEnable (q : Mp3Seq) (s : State) : (mp3Goto q s).irqEnable = s.irqEnable := rfl
@[simp] theorem mp3Goto_mem (q : Mp3Seq) (s : State) : (mp3Goto q s).mem = s.mem := rfl
@[simp] theorem mp3Goto_race (q : Mp3Seq) (s : State) : (mp3Goto q s).race = s.race := rfl
@[simp] theorem mp3Goto_stale (q : Mp3Seq) (s : State) : (mp3Goto q s).stale = s.stale := rfl
@[simp] theorem mp3Goto_env (q : Mp3Seq) (s : State) : (mp3Goto q s).env = s.env := rfl
@[simp] theorem mp3Goto_mp3_done (q : Mp3Seq) (s : State) : (mp3Goto q s).mp3.done = s.mp3.done := rfl
@[simp] theorem mp3Goto_mp3_cmdErr (q : Mp3Seq) (s : State) : (mp3Goto q s).mp3.cmdErr = s.mp3.cmdErr := rfl
@[simp] theorem mp3Goto_mp3_overrun (q : Mp3Seq) (s : State) : (mp3Goto q s).mp3.overrun = s.mp3.overrun := rfl
@[simp] theorem mp3Goto_mp3_errCause (q : Mp3Seq) (s : State) : (mp3Goto q s).mp3.errCause = s.mp3.errCause := rfl
@[simp] theorem mp3Goto_mp3_error (q : Mp3Seq) (s : State) : (mp3Goto q s).mp3.error = s.mp3.error := rfl
@[simp] theorem mp3Goto_mp3_needMore (q : Mp3Seq) (s : State) : (mp3Goto q s).mp3.needMore = s.mp3.needMore := rfl
@[simp] theorem mp3Goto_mp3_arg0 (q : Mp3Seq) (s : State) : (mp3Goto q s).mp3.arg0 = s.mp3.arg0 := rfl
@[simp] theorem mp3Goto_mp3_arg1 (q : Mp3Seq) (s : State) : (mp3Goto q s).mp3.arg1 = s.mp3.arg1 := rfl
@[simp] theorem mp3Goto_mp3_arg2 (q : Mp3Seq) (s : State) : (mp3Goto q s).mp3.arg2 = s.mp3.arg2 := rfl
@[simp] theorem mp3Goto_mp3_arg3 (q : Mp3Seq) (s : State) : (mp3Goto q s).mp3.arg3 = s.mp3.arg3 := rfl
@[simp] theorem mp3Goto_mp3_n (q : Mp3Seq) (s : State) : (mp3Goto q s).mp3.n = s.mp3.n := rfl
@[simp] theorem mp3Goto_mp3_samples (q : Mp3Seq) (s : State) : (mp3Goto q s).mp3.samples = s.mp3.samples := rfl
@[simp] theorem mp3Goto_mp3_trace (q : Mp3Seq) (s : State) : (mp3Goto q s).mp3.trace = s.mp3.trace := rfl
@[simp] theorem mp3Goto_mp3_run (q : Mp3Seq) (s : State) :
    (mp3Goto q s).mp3.run = s.mp3.run.map (fun r => { r with seq := q }) := rfl
@[simp] theorem mp3Goto_mp3_idecPort (q : Mp3Seq) (s : State) : (mp3Goto q s).mp3.idecPort = s.mp3.idecPort := rfl
@[simp] theorem mp3Goto_mp3_idecLog (q : Mp3Seq) (s : State) : (mp3Goto q s).mp3.idecLog = s.mp3.idecLog := rfl

/-! ### pulseIvad -/

@[simp] theorem pulseIvad_mp3 (s : State) : (pulseIvad s).mp3 = s.mp3 := rfl
@[simp] theorem pulseIvad_irqEnable (s : State) : (pulseIvad s).irqEnable = s.irqEnable := rfl
@[simp] theorem pulseIvad_mem (s : State) : (pulseIvad s).mem = s.mem := rfl
@[simp] theorem pulseIvad_race (s : State) : (pulseIvad s).race = s.race := rfl
@[simp] theorem pulseIvad_stale (s : State) : (pulseIvad s).stale = s.stale := rfl
@[simp] theorem pulseIvad_env (s : State) : (pulseIvad s).env = s.env := rfl
@[simp] theorem pulseIvad_vad_done (s : State) : (pulseIvad s).vad.done = s.vad.done := rfl
@[simp] theorem pulseIvad_vad_cmdErr (s : State) : (pulseIvad s).vad.cmdErr = s.vad.cmdErr := rfl
@[simp] theorem pulseIvad_vad_overrun (s : State) : (pulseIvad s).vad.overrun = s.vad.overrun := rfl
@[simp] theorem pulseIvad_vad_errCause (s : State) : (pulseIvad s).vad.errCause = s.vad.errCause := rfl
@[simp] theorem pulseIvad_vad_rateReject (s : State) : (pulseIvad s).vad.rateReject = s.vad.rateReject := rfl
@[simp] theorem pulseIvad_vad_arg0 (s : State) : (pulseIvad s).vad.arg0 = s.vad.arg0 := rfl
@[simp] theorem pulseIvad_vad_arg1 (s : State) : (pulseIvad s).vad.arg1 = s.vad.arg1 := rfl
@[simp] theorem pulseIvad_vad_arg2 (s : State) : (pulseIvad s).vad.arg2 = s.vad.arg2 := rfl
@[simp] theorem pulseIvad_vad_result (s : State) : (pulseIvad s).vad.result = s.vad.result := rfl
@[simp] theorem pulseIvad_vad_rate (s : State) : (pulseIvad s).vad.rate = s.vad.rate := rfl
@[simp] theorem pulseIvad_vad_flen (s : State) : (pulseIvad s).vad.flen = s.vad.flen := rfl
@[simp] theorem pulseIvad_vad_off (s : State) : (pulseIvad s).vad.off = s.vad.off := rfl
@[simp] theorem pulseIvad_vad_mode (s : State) : (pulseIvad s).vad.mode = s.vad.mode := rfl
@[simp] theorem pulseIvad_vad_hist (s : State) : (pulseIvad s).vad.hist = s.vad.hist := rfl
@[simp] theorem pulseIvad_vad_rb (s : State) : (pulseIvad s).vad.rb = s.vad.rb := rfl
@[simp] theorem pulseIvad_vad_rbEpoch (s : State) : (pulseIvad s).vad.rbEpoch = s.vad.rbEpoch := rfl
@[simp] theorem pulseIvad_vad_run (s : State) : (pulseIvad s).vad.run = s.vad.run := rfl
@[simp] theorem pulseIvad_vad_memPort (s : State) : (pulseIvad s).vad.memPort = s.vad.memPort := rfl
@[simp] theorem pulseIvad_vad_memLog (s : State) : (pulseIvad s).vad.memLog = s.vad.memLog := rfl
@[simp] theorem pulseIvad_vad_ivadPort (s : State) : (pulseIvad s).vad.ivadPort = s.vad.ivadPort := rfl
@[simp] theorem pulseIvad_vad_ivadLog (s : State) : (pulseIvad s).vad.ivadLog = .reset :: s.vad.ivadLog := rfl

/-! ### pulseIdec -/

@[simp] theorem pulseIdec_vad (s : State) : (pulseIdec s).vad = s.vad := rfl
@[simp] theorem pulseIdec_irqEnable (s : State) : (pulseIdec s).irqEnable = s.irqEnable := rfl
@[simp] theorem pulseIdec_mem (s : State) : (pulseIdec s).mem = s.mem := rfl
@[simp] theorem pulseIdec_race (s : State) : (pulseIdec s).race = s.race := rfl
@[simp] theorem pulseIdec_stale (s : State) : (pulseIdec s).stale = s.stale := rfl
@[simp] theorem pulseIdec_env (s : State) : (pulseIdec s).env = s.env := rfl
@[simp] theorem pulseIdec_mp3_done (s : State) : (pulseIdec s).mp3.done = s.mp3.done := rfl
@[simp] theorem pulseIdec_mp3_cmdErr (s : State) : (pulseIdec s).mp3.cmdErr = s.mp3.cmdErr := rfl
@[simp] theorem pulseIdec_mp3_overrun (s : State) : (pulseIdec s).mp3.overrun = s.mp3.overrun := rfl
@[simp] theorem pulseIdec_mp3_errCause (s : State) : (pulseIdec s).mp3.errCause = s.mp3.errCause := rfl
@[simp] theorem pulseIdec_mp3_error (s : State) : (pulseIdec s).mp3.error = s.mp3.error := rfl
@[simp] theorem pulseIdec_mp3_needMore (s : State) : (pulseIdec s).mp3.needMore = s.mp3.needMore := rfl
@[simp] theorem pulseIdec_mp3_arg0 (s : State) : (pulseIdec s).mp3.arg0 = s.mp3.arg0 := rfl
@[simp] theorem pulseIdec_mp3_arg1 (s : State) : (pulseIdec s).mp3.arg1 = s.mp3.arg1 := rfl
@[simp] theorem pulseIdec_mp3_arg2 (s : State) : (pulseIdec s).mp3.arg2 = s.mp3.arg2 := rfl
@[simp] theorem pulseIdec_mp3_arg3 (s : State) : (pulseIdec s).mp3.arg3 = s.mp3.arg3 := rfl
@[simp] theorem pulseIdec_mp3_n (s : State) : (pulseIdec s).mp3.n = s.mp3.n := rfl
@[simp] theorem pulseIdec_mp3_samples (s : State) : (pulseIdec s).mp3.samples = s.mp3.samples := rfl
@[simp] theorem pulseIdec_mp3_trace (s : State) : (pulseIdec s).mp3.trace = s.mp3.trace := rfl
@[simp] theorem pulseIdec_mp3_run (s : State) : (pulseIdec s).mp3.run = s.mp3.run := rfl
@[simp] theorem pulseIdec_mp3_idecPort (s : State) : (pulseIdec s).mp3.idecPort = s.mp3.idecPort := rfl
@[simp] theorem pulseIdec_mp3_idecLog (s : State) : (pulseIdec s).mp3.idecLog = .reset :: s.mp3.idecLog := rfl

/-! ### postMem -/

@[simp] theorem postMem_mp3 (a : Word) (s : State) : (postMem a s).mp3 = s.mp3 := rfl
@[simp] theorem postMem_irqEnable (a : Word) (s : State) : (postMem a s).irqEnable = s.irqEnable := rfl
@[simp] theorem postMem_mem (a : Word) (s : State) : (postMem a s).mem = s.mem := rfl
@[simp] theorem postMem_race (a : Word) (s : State) : (postMem a s).race = s.race := rfl
@[simp] theorem postMem_stale (a : Word) (s : State) : (postMem a s).stale = s.stale := rfl
@[simp] theorem postMem_env (a : Word) (s : State) : (postMem a s).env = s.env := rfl
@[simp] theorem postMem_vad_done (a : Word) (s : State) : (postMem a s).vad.done = s.vad.done := rfl
@[simp] theorem postMem_vad_cmdErr (a : Word) (s : State) : (postMem a s).vad.cmdErr = s.vad.cmdErr := rfl
@[simp] theorem postMem_vad_overrun (a : Word) (s : State) : (postMem a s).vad.overrun = s.vad.overrun := rfl
@[simp] theorem postMem_vad_errCause (a : Word) (s : State) : (postMem a s).vad.errCause = s.vad.errCause := rfl
@[simp] theorem postMem_vad_rateReject (a : Word) (s : State) : (postMem a s).vad.rateReject = s.vad.rateReject := rfl
@[simp] theorem postMem_vad_arg0 (a : Word) (s : State) : (postMem a s).vad.arg0 = s.vad.arg0 := rfl
@[simp] theorem postMem_vad_arg1 (a : Word) (s : State) : (postMem a s).vad.arg1 = s.vad.arg1 := rfl
@[simp] theorem postMem_vad_arg2 (a : Word) (s : State) : (postMem a s).vad.arg2 = s.vad.arg2 := rfl
@[simp] theorem postMem_vad_result (a : Word) (s : State) : (postMem a s).vad.result = s.vad.result := rfl
@[simp] theorem postMem_vad_rate (a : Word) (s : State) : (postMem a s).vad.rate = s.vad.rate := rfl
@[simp] theorem postMem_vad_flen (a : Word) (s : State) : (postMem a s).vad.flen = s.vad.flen := rfl
@[simp] theorem postMem_vad_off (a : Word) (s : State) : (postMem a s).vad.off = s.vad.off := rfl
@[simp] theorem postMem_vad_mode (a : Word) (s : State) : (postMem a s).vad.mode = s.vad.mode := rfl
@[simp] theorem postMem_vad_hist (a : Word) (s : State) : (postMem a s).vad.hist = s.vad.hist := rfl
@[simp] theorem postMem_vad_rb (a : Word) (s : State) : (postMem a s).vad.rb = s.vad.rb := rfl
@[simp] theorem postMem_vad_rbEpoch (a : Word) (s : State) : (postMem a s).vad.rbEpoch = s.vad.rbEpoch := rfl
@[simp] theorem postMem_vad_run (a : Word) (s : State) : (postMem a s).vad.run = s.vad.run := rfl
@[simp] theorem postMem_vad_memPort (a : Word) (s : State) : (postMem a s).vad.memPort = .pending a := rfl
@[simp] theorem postMem_vad_memLog (a : Word) (s : State) : (postMem a s).vad.memLog = s.vad.memLog := rfl
@[simp] theorem postMem_vad_ivadPort (a : Word) (s : State) : (postMem a s).vad.ivadPort = s.vad.ivadPort := rfl
@[simp] theorem postMem_vad_ivadLog (a : Word) (s : State) : (postMem a s).vad.ivadLog = s.vad.ivadLog := rfl

/-! ### postIvad -/

@[simp] theorem postIvad_mp3 (r : IvadReq) (s : State) : (postIvad r s).mp3 = s.mp3 := rfl
@[simp] theorem postIvad_irqEnable (r : IvadReq) (s : State) : (postIvad r s).irqEnable = s.irqEnable := rfl
@[simp] theorem postIvad_mem (r : IvadReq) (s : State) : (postIvad r s).mem = s.mem := rfl
@[simp] theorem postIvad_race (r : IvadReq) (s : State) : (postIvad r s).race = s.race := rfl
@[simp] theorem postIvad_stale (r : IvadReq) (s : State) : (postIvad r s).stale = s.stale := rfl
@[simp] theorem postIvad_env (r : IvadReq) (s : State) : (postIvad r s).env = s.env := rfl
@[simp] theorem postIvad_vad_done (r : IvadReq) (s : State) : (postIvad r s).vad.done = s.vad.done := rfl
@[simp] theorem postIvad_vad_cmdErr (r : IvadReq) (s : State) : (postIvad r s).vad.cmdErr = s.vad.cmdErr := rfl
@[simp] theorem postIvad_vad_overrun (r : IvadReq) (s : State) : (postIvad r s).vad.overrun = s.vad.overrun := rfl
@[simp] theorem postIvad_vad_errCause (r : IvadReq) (s : State) : (postIvad r s).vad.errCause = s.vad.errCause := rfl
@[simp] theorem postIvad_vad_rateReject (r : IvadReq) (s : State) :
    (postIvad r s).vad.rateReject = s.vad.rateReject := rfl
@[simp] theorem postIvad_vad_arg0 (r : IvadReq) (s : State) : (postIvad r s).vad.arg0 = s.vad.arg0 := rfl
@[simp] theorem postIvad_vad_arg1 (r : IvadReq) (s : State) : (postIvad r s).vad.arg1 = s.vad.arg1 := rfl
@[simp] theorem postIvad_vad_arg2 (r : IvadReq) (s : State) : (postIvad r s).vad.arg2 = s.vad.arg2 := rfl
@[simp] theorem postIvad_vad_result (r : IvadReq) (s : State) : (postIvad r s).vad.result = s.vad.result := rfl
@[simp] theorem postIvad_vad_rate (r : IvadReq) (s : State) : (postIvad r s).vad.rate = s.vad.rate := rfl
@[simp] theorem postIvad_vad_flen (r : IvadReq) (s : State) : (postIvad r s).vad.flen = s.vad.flen := rfl
@[simp] theorem postIvad_vad_off (r : IvadReq) (s : State) : (postIvad r s).vad.off = s.vad.off := rfl
@[simp] theorem postIvad_vad_mode (r : IvadReq) (s : State) : (postIvad r s).vad.mode = s.vad.mode := rfl
@[simp] theorem postIvad_vad_hist (r : IvadReq) (s : State) : (postIvad r s).vad.hist = s.vad.hist := rfl
@[simp] theorem postIvad_vad_rb (r : IvadReq) (s : State) : (postIvad r s).vad.rb = s.vad.rb := rfl
@[simp] theorem postIvad_vad_rbEpoch (r : IvadReq) (s : State) : (postIvad r s).vad.rbEpoch = s.vad.rbEpoch := rfl
@[simp] theorem postIvad_vad_run (r : IvadReq) (s : State) : (postIvad r s).vad.run = s.vad.run := rfl
@[simp] theorem postIvad_vad_memPort (r : IvadReq) (s : State) : (postIvad r s).vad.memPort = s.vad.memPort := rfl
@[simp] theorem postIvad_vad_memLog (r : IvadReq) (s : State) : (postIvad r s).vad.memLog = s.vad.memLog := rfl
@[simp] theorem postIvad_vad_ivadPort (r : IvadReq) (s : State) : (postIvad r s).vad.ivadPort = .pending r := rfl
@[simp] theorem postIvad_vad_ivadLog (r : IvadReq) (s : State) :
    (postIvad r s).vad.ivadLog = .request r :: s.vad.ivadLog := rfl

/-! ### postIdec -/

@[simp] theorem postIdec_vad (r : IdecReq) (s : State) : (postIdec r s).vad = s.vad := rfl
@[simp] theorem postIdec_irqEnable (r : IdecReq) (s : State) : (postIdec r s).irqEnable = s.irqEnable := rfl
@[simp] theorem postIdec_mem (r : IdecReq) (s : State) : (postIdec r s).mem = s.mem := rfl
@[simp] theorem postIdec_race (r : IdecReq) (s : State) : (postIdec r s).race = s.race := rfl
@[simp] theorem postIdec_stale (r : IdecReq) (s : State) : (postIdec r s).stale = s.stale := rfl
@[simp] theorem postIdec_env (r : IdecReq) (s : State) : (postIdec r s).env = s.env := rfl
@[simp] theorem postIdec_mp3_done (r : IdecReq) (s : State) : (postIdec r s).mp3.done = s.mp3.done := rfl
@[simp] theorem postIdec_mp3_cmdErr (r : IdecReq) (s : State) : (postIdec r s).mp3.cmdErr = s.mp3.cmdErr := rfl
@[simp] theorem postIdec_mp3_overrun (r : IdecReq) (s : State) : (postIdec r s).mp3.overrun = s.mp3.overrun := rfl
@[simp] theorem postIdec_mp3_errCause (r : IdecReq) (s : State) : (postIdec r s).mp3.errCause = s.mp3.errCause := rfl
@[simp] theorem postIdec_mp3_error (r : IdecReq) (s : State) : (postIdec r s).mp3.error = s.mp3.error := rfl
@[simp] theorem postIdec_mp3_needMore (r : IdecReq) (s : State) : (postIdec r s).mp3.needMore = s.mp3.needMore := rfl
@[simp] theorem postIdec_mp3_arg0 (r : IdecReq) (s : State) : (postIdec r s).mp3.arg0 = s.mp3.arg0 := rfl
@[simp] theorem postIdec_mp3_arg1 (r : IdecReq) (s : State) : (postIdec r s).mp3.arg1 = s.mp3.arg1 := rfl
@[simp] theorem postIdec_mp3_arg2 (r : IdecReq) (s : State) : (postIdec r s).mp3.arg2 = s.mp3.arg2 := rfl
@[simp] theorem postIdec_mp3_arg3 (r : IdecReq) (s : State) : (postIdec r s).mp3.arg3 = s.mp3.arg3 := rfl
@[simp] theorem postIdec_mp3_n (r : IdecReq) (s : State) : (postIdec r s).mp3.n = s.mp3.n := rfl
@[simp] theorem postIdec_mp3_samples (r : IdecReq) (s : State) : (postIdec r s).mp3.samples = s.mp3.samples := rfl
@[simp] theorem postIdec_mp3_trace (r : IdecReq) (s : State) : (postIdec r s).mp3.trace = s.mp3.trace := rfl
@[simp] theorem postIdec_mp3_run (r : IdecReq) (s : State) : (postIdec r s).mp3.run = s.mp3.run := rfl
@[simp] theorem postIdec_mp3_idecPort (r : IdecReq) (s : State) : (postIdec r s).mp3.idecPort = .pending r := rfl
@[simp] theorem postIdec_mp3_idecLog (r : IdecReq) (s : State) :
    (postIdec r s).mp3.idecLog = .request r :: s.mp3.idecLog := rfl

/-! ### fillSample -/

@[simp] theorem fillSample_mp3 (w : ProcWork) (word : Word) (s : State) : (fillSample w word s).mp3 = s.mp3 := rfl
@[simp] theorem fillSample_irqEnable (w : ProcWork) (word : Word) (s : State) : (fillSample w word s).irqEnable = s.irqEnable := rfl
@[simp] theorem fillSample_mem (w : ProcWork) (word : Word) (s : State) : (fillSample w word s).mem = s.mem := rfl
@[simp] theorem fillSample_race (w : ProcWork) (word : Word) (s : State) : (fillSample w word s).race = s.race := rfl
@[simp] theorem fillSample_stale (w : ProcWork) (word : Word) (s : State) : (fillSample w word s).stale = s.stale := rfl
@[simp] theorem fillSample_env (w : ProcWork) (word : Word) (s : State) : (fillSample w word s).env = s.env := rfl
@[simp] theorem fillSample_vad_done (w : ProcWork) (word : Word) (s : State) :
    (fillSample w word s).vad.done = s.vad.done := rfl
@[simp] theorem fillSample_vad_cmdErr (w : ProcWork) (word : Word) (s : State) :
    (fillSample w word s).vad.cmdErr = s.vad.cmdErr := rfl
@[simp] theorem fillSample_vad_overrun (w : ProcWork) (word : Word) (s : State) :
    (fillSample w word s).vad.overrun = s.vad.overrun := rfl
@[simp] theorem fillSample_vad_errCause (w : ProcWork) (word : Word) (s : State) :
    (fillSample w word s).vad.errCause = s.vad.errCause := rfl
@[simp] theorem fillSample_vad_rateReject (w : ProcWork) (word : Word) (s : State) :
    (fillSample w word s).vad.rateReject = s.vad.rateReject := rfl
@[simp] theorem fillSample_vad_arg0 (w : ProcWork) (word : Word) (s : State) :
    (fillSample w word s).vad.arg0 = s.vad.arg0 := rfl
@[simp] theorem fillSample_vad_arg1 (w : ProcWork) (word : Word) (s : State) :
    (fillSample w word s).vad.arg1 = s.vad.arg1 := rfl
@[simp] theorem fillSample_vad_arg2 (w : ProcWork) (word : Word) (s : State) :
    (fillSample w word s).vad.arg2 = s.vad.arg2 := rfl
@[simp] theorem fillSample_vad_result (w : ProcWork) (word : Word) (s : State) :
    (fillSample w word s).vad.result = s.vad.result := rfl
@[simp] theorem fillSample_vad_rate (w : ProcWork) (word : Word) (s : State) :
    (fillSample w word s).vad.rate = s.vad.rate := rfl
@[simp] theorem fillSample_vad_flen (w : ProcWork) (word : Word) (s : State) :
    (fillSample w word s).vad.flen = s.vad.flen := rfl
@[simp] theorem fillSample_vad_off (w : ProcWork) (word : Word) (s : State) :
    (fillSample w word s).vad.off = s.vad.off := rfl
@[simp] theorem fillSample_vad_mode (w : ProcWork) (word : Word) (s : State) :
    (fillSample w word s).vad.mode = s.vad.mode := rfl
@[simp] theorem fillSample_vad_hist (w : ProcWork) (word : Word) (s : State) :
    (fillSample w word s).vad.hist = s.vad.hist := rfl
@[simp] theorem fillSample_vad_rb (w : ProcWork) (word : Word) (s : State) :
    (fillSample w word s).vad.rb = cellSet s.vad.rb w.off (quant word) := rfl
@[simp] theorem fillSample_vad_rbEpoch (w : ProcWork) (word : Word) (s : State) :
    (fillSample w word s).vad.rbEpoch = s.vad.rbEpoch := rfl
@[simp] theorem fillSample_vad_run (w : ProcWork) (word : Word) (s : State) :
    (fillSample w word s).vad.run = s.vad.run := rfl
@[simp] theorem fillSample_vad_memPort (w : ProcWork) (word : Word) (s : State) :
    (fillSample w word s).vad.memPort = .idle := rfl
@[simp] theorem fillSample_vad_memLog (w : ProcWork) (word : Word) (s : State) :
    (fillSample w word s).vad.memLog = (BitVec.ofNat 32 w.p, word) :: s.vad.memLog := rfl
@[simp] theorem fillSample_vad_ivadPort (w : ProcWork) (word : Word) (s : State) :
    (fillSample w word s).vad.ivadPort = s.vad.ivadPort := rfl
@[simp] theorem fillSample_vad_ivadLog (w : ProcWork) (word : Word) (s : State) :
    (fillSample w word s).vad.ivadLog = s.vad.ivadLog := rfl

/-! ### drawn -/

@[simp] theorem drawn_vad (s : State) : (drawn s).vad = s.vad := rfl
@[simp] theorem drawn_mp3 (s : State) : (drawn s).mp3 = s.mp3 := rfl
@[simp] theorem drawn_irqEnable (s : State) : (drawn s).irqEnable = s.irqEnable := rfl
@[simp] theorem drawn_mem (s : State) : (drawn s).mem = s.mem := rfl
@[simp] theorem drawn_race (s : State) : (drawn s).race = s.race := rfl
@[simp] theorem drawn_stale (s : State) : (drawn s).stale = s.stale := rfl
@[simp] theorem drawn_env_turn (s : State) : (drawn s).env.turn = s.env.turn := rfl
@[simp] theorem drawn_env_sched (s : State) : (drawn s).env.sched = s.env.sched := rfl
@[simp] theorem drawn_env_tick (s : State) : (drawn s).env.tick = s.env.tick := rfl
@[simp] theorem drawn_env_hostOps (s : State) : (drawn s).env.hostOps = s.env.hostOps := rfl
@[simp] theorem drawn_env_results (s : State) : (drawn s).env.results = s.env.results := rfl
@[simp] theorem drawn_env_ivadAnswers (s : State) : (drawn s).env.ivadAnswers = s.env.ivadAnswers := rfl
@[simp] theorem drawn_env_idecAnswers (s : State) : (drawn s).env.idecAnswers = s.env.idecAnswers := rfl
@[simp] theorem drawn_env_draws (s : State) : (drawn s).env.draws = s.env.draws + 1 := rfl

/-! ### popHostOp -/

@[simp] theorem popHostOp_vad (s : State) : (popHostOp s).vad = s.vad := rfl
@[simp] theorem popHostOp_mp3 (s : State) : (popHostOp s).mp3 = s.mp3 := rfl
@[simp] theorem popHostOp_irqEnable (s : State) : (popHostOp s).irqEnable = s.irqEnable := rfl
@[simp] theorem popHostOp_mem (s : State) : (popHostOp s).mem = s.mem := rfl
@[simp] theorem popHostOp_race (s : State) : (popHostOp s).race = s.race := rfl
@[simp] theorem popHostOp_stale (s : State) : (popHostOp s).stale = s.stale := rfl
@[simp] theorem popHostOp_env_turn (s : State) : (popHostOp s).env.turn = s.env.turn := rfl
@[simp] theorem popHostOp_env_sched (s : State) : (popHostOp s).env.sched = s.env.sched := rfl
@[simp] theorem popHostOp_env_tick (s : State) : (popHostOp s).env.tick = s.env.tick := rfl
@[simp] theorem popHostOp_env_hostOps (s : State) : (popHostOp s).env.hostOps = s.env.hostOps.tail := rfl
@[simp] theorem popHostOp_env_results (s : State) : (popHostOp s).env.results = s.env.results := rfl
@[simp] theorem popHostOp_env_ivadAnswers (s : State) : (popHostOp s).env.ivadAnswers = s.env.ivadAnswers := rfl
@[simp] theorem popHostOp_env_idecAnswers (s : State) : (popHostOp s).env.idecAnswers = s.env.idecAnswers := rfl
@[simp] theorem popHostOp_env_draws (s : State) : (popHostOp s).env.draws = s.env.draws := rfl

/-! ### pushResult -/

@[simp] theorem pushResult_vad (v : Word) (s : State) : (pushResult v s).vad = s.vad := rfl
@[simp] theorem pushResult_mp3 (v : Word) (s : State) : (pushResult v s).mp3 = s.mp3 := rfl
@[simp] theorem pushResult_irqEnable (v : Word) (s : State) : (pushResult v s).irqEnable = s.irqEnable := rfl
@[simp] theorem pushResult_mem (v : Word) (s : State) : (pushResult v s).mem = s.mem := rfl
@[simp] theorem pushResult_race (v : Word) (s : State) : (pushResult v s).race = s.race := rfl
@[simp] theorem pushResult_stale (v : Word) (s : State) : (pushResult v s).stale = s.stale := rfl
@[simp] theorem pushResult_env_results (v : Word) (s : State) :
    (pushResult v s).env.results = v :: s.env.results := rfl

/-! ### takeTurn -/

@[simp] theorem takeTurn_vad (s : State) : (takeTurn s).vad = s.vad := by
  unfold takeTurn; split <;> rfl
@[simp] theorem takeTurn_mp3 (s : State) : (takeTurn s).mp3 = s.mp3 := by
  unfold takeTurn; split <;> rfl
@[simp] theorem takeTurn_irqEnable (s : State) : (takeTurn s).irqEnable = s.irqEnable := by
  unfold takeTurn; split <;> rfl
@[simp] theorem takeTurn_mem (s : State) : (takeTurn s).mem = s.mem := by
  unfold takeTurn; split <;> rfl
@[simp] theorem takeTurn_race (s : State) : (takeTurn s).race = s.race := by
  unfold takeTurn; split <;> rfl
@[simp] theorem takeTurn_stale (s : State) : (takeTurn s).stale = s.stale := by
  unfold takeTurn; split <;> rfl
@[simp] theorem takeTurn_env_hostOps (s : State) : (takeTurn s).env.hostOps = s.env.hostOps := by
  unfold takeTurn; split <;> rfl
@[simp] theorem takeTurn_env_results (s : State) : (takeTurn s).env.results = s.env.results := by
  unfold takeTurn; split <;> rfl
@[simp] theorem takeTurn_env_ivadAnswers (s : State) : (takeTurn s).env.ivadAnswers = s.env.ivadAnswers := by
  unfold takeTurn; split <;> rfl
@[simp] theorem takeTurn_env_idecAnswers (s : State) : (takeTurn s).env.idecAnswers = s.env.idecAnswers := by
  unfold takeTurn; split <;> rfl
@[simp] theorem takeTurn_env_draws (s : State) : (takeTurn s).env.draws = s.env.draws := by
  unfold takeTurn; split <;> rfl

/-! ### hardReset -/

@[simp] theorem hardReset_vad (s : State) :
    (hardReset s).vad = VadUnit.reset (s.vad.rbEpoch + 1) s.vad.ivadLog := rfl
@[simp] theorem hardReset_mp3 (s : State) : (hardReset s).mp3 = Mp3Unit.reset s.mp3.idecLog := rfl
@[simp] theorem hardReset_irqEnable (s : State) : (hardReset s).irqEnable = 0 := rfl
@[simp] theorem hardReset_race (s : State) : (hardReset s).race = [] := rfl

end Sys2Proof.Machine
end

