-- ==== Sys2Proof/Laws/Turns.lean ====
section
/-! SUPPORT. The turns: what taking one can do, and that no agent's step changes whose turn comes. -/

namespace Sys2Proof.Machine

/-- Two states between which the turns stand still. -/
def sameTurns (s t : State) : Prop :=
  t.env.turn = s.env.turn ∧ t.env.sched = s.env.sched ∧ t.env.tick = s.env.tick

theorem sameTurns_of_env {s t : State} (h : t.env = s.env) : sameTurns s t := by
  unfold sameTurns; rw [h]; exact ⟨rfl, rfl, rfl⟩

theorem sameTurns_trans {s t u : State} (h : sameTurns s t) (g : sameTurns t u) : sameTurns s u :=
  ⟨g.1.trans h.1, g.2.1.trans h.2.1, g.2.2.trans h.2.2⟩

/-- The turns of a tick are never none, and the last of them is the one that fairness gives. -/
theorem tickTurns_ends (tick : Nat) : ∃ l, tickTurns tick = l ++ [fairAgent tick] := ⟨_, rfl⟩

/-- Taking a turn: from a schedule `l`, its own or a new tick's, the first entry becomes the turn. -/
theorem takeTurn_cases (s : State) :
    ∃ a rest, (takeTurn s).env.turn = a ∧ (takeTurn s).env.sched = rest
      ∧ ((s.env.sched = a :: rest ∧ (takeTurn s).env.tick = s.env.tick)
        ∨ (s.env.sched = [] ∧ tickTurns s.env.tick = a :: rest ∧ (takeTurn s).env.tick = s.env.tick + 1)) := by
  unfold takeTurn
  split
  · next a rest h => exact ⟨a, rest, rfl, rfl, .inl ⟨h, rfl⟩⟩
  · next h =>
    cases hl : tickTurns s.env.tick with
    | nil => simp [tickTurns] at hl
    | cons a rest => exact ⟨a, rest, rfl, rfl, .inr ⟨h, rfl, rfl⟩⟩

theorem iterate_env {w : ProcWork} {s t : State} (h : iterate w s = .next t) : t.env = s.env := by
  rcases iterate_cases h with ⟨-, rfl⟩ | ⟨-, -, rfl⟩ | ⟨-, -, -, -, rfl⟩ <;> rfl

/-- No command's step touches the outside world. -/
theorem exec_env {i : Instr} {s t : State} (h : exec i s = .next t) : t.env = s.env := by
  cases hu : i.unit with
  | vad =>
    rcases exec_vad_cases hu h with ⟨-, q, c, h, -⟩ | ⟨-, -, h⟩ | ⟨-, -, h⟩ | ⟨-, -, h⟩ | rfl
    · rcases issueVad_cases h with ⟨-, rfl⟩ | ⟨-, c, -, rfl⟩ | ⟨-, -, rfl⟩ <;> rfl
    · rcases runVadInit_cases h with ⟨r, -, -, rfl⟩ | ⟨r, -, -, rfl⟩ | rfl <;> rfl
    · rcases runVadSetmode_cases h with ⟨r, -, -, rfl⟩ | rfl <;> rfl
    · rcases runVadProcess_cases h with rfl | ⟨run, -, ⟨-, -, rfl⟩ | ⟨r, f, -, -, h⟩ | ⟨w, -, h⟩ |
        ⟨w, word, -, -, h⟩ | ⟨w, code, -, -, rfl⟩⟩
      · rfl
      · rfl
      · exact iterate_env h
      · exact iterate_env h
      · have e := iterate_env (takeSample_cases h).2; exact e
      · rfl
    · rfl
  | mp3 =>
    have hd : ∀ fmt, t = runDecode fmt s → t.env = s.env := by
      intro fmt h
      rcases runDecode_cases h with rfl | ⟨r, -, ⟨b, -, rfl⟩ | ⟨b, n, hp, -, -, rfl⟩ | ⟨b, n, -, rfl⟩⟩ <;> rfl
    have hi : ∀ q c, t = issueMp3 q c s → t.env = s.env := by
      intro q c h
      rcases issueMp3_cases h with ⟨-, rfl⟩ | ⟨-, c, -, rfl⟩ | ⟨-, -, rfl⟩ <;> rfl
    rcases exec_mp3_cases hu h with ⟨-, ⟨fmt, h⟩ | h⟩ | ⟨-, -, h⟩ | ⟨-, -, h⟩ | ⟨-, -, h⟩ | rfl
    · exact hi _ _ h
    · exact hi _ _ h
    · exact hd _ h
    · exact hd _ h
    · rcases runMp3Reset_cases h with ⟨r, -, -, rfl⟩ | ⟨r, -, -, rfl⟩ | rfl <;> rfl
    · rfl

/-- No write to the window touches the outside world. -/
theorem windowWrite_env {offset : BitVec 13} {width : Width} {w : Word} {s t : State}
    (h : windowWrite offset width w s = .next t) : t.env = s.env := by
  have hc : ∀ u, commandWrite u w s = .next t → t.env = s.env := by
    intro u h
    rcases commandWrite_cases u w s with ⟨i, -, -, e⟩ | ⟨c, -, e⟩ <;> rw [e] at h
    · exact exec_env h
    · rw [next_inj.1 h]; cases u <;> split <;> rfl
  unfold windowWrite at h
  split at h
  · split at h
    · next r _ => cases r <;> first | exact hc _ h | (rw [next_inj.1 h])
    · rw [next_inj.1 h]
  · rw [next_inj.1 h]

theorem hardReset_turns (s : State) : sameTurns s (hardReset s) := by
  have h : sameTurns s (abandonOutputs s) := by
    unfold abandonOutputs
    split
    · exact ⟨rfl, rfl, rfl⟩
    · split
      · exact ⟨rfl, rfl, rfl⟩
      · exact sameTurns_trans (t := drawn s) ⟨rfl, rfl, rfl⟩ (sameTurns_of_env (writeOutputs_rest _ _ _ _ _).2.2.2.2)
  exact h

theorem hostOp_turns {op : HostOp} {s t : State} (h : hostOp op s = .next t) : sameTurns s t := by
  have hpop : sameTurns s (popHostOp s) := ⟨rfl, rfl, rfl⟩
  have hw : ∀ o wd w, windowWrite o wd w (popHostOp s) = .next t → sameTurns s t :=
    fun o wd w h => sameTurns_trans hpop (sameTurns_of_env (windowWrite_env h))
  have hp : ∀ o q, sameTurns s (hostPoll o q s) := by
    intro o q; unfold hostPoll pushResult drawn; dsimp only; split <;> exact ⟨rfl, rfl, rfl⟩
  have hd : ∀ {u : State}, (∃ d, u.env = { (popHostOp s).env with draws := d }) → sameTurns s u := by
    rintro u ⟨d, hu⟩; unfold sameTurns; rw [hu]; exact ⟨rfl, rfl, rfl⟩
  cases op <;> simp only [hostOp] at h
  · exact hw _ _ _ h
  · rw [next_inj.1 h]; exact ⟨rfl, rfl, rfl⟩
  · rw [next_inj.1 h]; exact hp _ _
  · rw [next_inj.1 h]; exact hp _ _
  · split at h
    · exact hw _ _ _ h
    · rw [next_inj.1 h]; exact hd (hostStoreBytes_rest _ _ _).2.2.2
  · split at h <;> rw [next_inj.1 h] <;> exact ⟨rfl, rfl, rfl⟩
  · rw [next_inj.1 h]; exact hd (hostStore_rest _ _ _).2.2.2
  · rw [next_inj.1 h]; exact ⟨rfl, rfl, rfl⟩
  · rw [next_inj.1 h]; exact sameTurns_trans hpop (hardReset_turns _)

/-- No agent's step changes the turns. -/
theorem agentMove_turns {s t : State} (h : agentMove s = .next t) : sameTurns s t := by
  unfold agentMove at h
  split at h
  · unfold hostMove at h
    split at h
    · rw [next_inj.1 h]; exact ⟨rfl, rfl, rfl⟩
    · exact hostOp_turns h
  · unfold vadMove at h
    split at h
    · rw [next_inj.1 h]; exact ⟨rfl, rfl, rfl⟩
    · exact sameTurns_of_env (exec_env h)
  · unfold mp3Move at h
    split at h
    · rw [next_inj.1 h]; exact ⟨rfl, rfl, rfl⟩
    · exact sameTurns_of_env (exec_env h)
  · rw [next_inj.1 h]
    rcases memoryMove_cases s with e | ⟨a, w, s', -, hm, e⟩ <;> rw [e]
    · exact ⟨rfl, rfl, rfl⟩
    · rcases memRead_cases hm with ⟨-, -, rfl⟩ | ⟨-, -, rfl⟩ | ⟨v, -, rfl, -⟩ <;> exact ⟨rfl, rfl, rfl⟩
  · rw [next_inj.1 h]
    rcases innerVadMove_cases s with e | ⟨r, code, -, e⟩ <;> rw [e] <;> exact ⟨rfl, rfl, rfl⟩
  · rw [next_inj.1 h]
    rcases innerDecoderMove_cases s with e | ⟨r, n, hp, ws, -, e⟩ <;> rw [e] <;> exact ⟨rfl, rfl, rfl⟩

end Sys2Proof.Machine
end

