-- ==== Sys2Proof/Tests/Slice0.lean ====
section
/-! SUPPORT. Small checks of the model against 95_test_vectors.md and the encoding tables: well-formedness, decoding,
the pure functions, and one step of each command. Expected values are the spec's own (the row is named), never the
model's. -/

namespace Sys2Proof.Tests

open Sys2Proof Sys2Proof.Machine

/-! ### Well-formedness: for each check, a term that it refuses -/

theorem test_wf_rbWin_past_end : (Reg.rbWin 720).wellFormed = false := by decide
theorem test_wf_rbWin_last : (Reg.rbWin 719).wellFormed = true := by decide
theorem test_wf_line_w : (ScriptLine.w (.rbWin 720) 0).wellFormed = false := by decide
theorem test_wf_line_r : (ScriptLine.r (.rbWin 720)).wellFormed = false := by decide
theorem test_wf_line_poll : (ScriptLine.poll (.rbWin 720) 1 1).wellFormed = false := by decide
theorem test_wf_line_pollAny : (ScriptLine.pollAny (.rbWin 720) 1).wellFormed = false := by decide
theorem test_wf_write_misaligned : (HostOp.write 0x002 .w32 0).definedAccess = false := by decide
theorem test_wf_write_narrow : (HostOp.write 0x000 .w16 0).definedAccess = false := by decide
theorem test_wf_write_wide : (HostOp.write 0x000 .w64 0).definedAccess = false := by decide
theorem test_wf_read_misaligned : (HostOp.read 0x016 .w32).definedAccess = false := by decide
theorem test_wf_read_narrow : (HostOp.read 0x014 .w8).definedAccess = false := by decide
theorem test_wf_poll_misaligned : (HostOp.poll 0x006 1 1).definedAccess = false := by decide
theorem test_wf_pollAny_misaligned : (HostOp.pollAny 0x006 1).definedAccess = false := by decide

/-! ### Decoding: every constructor from its word, written out as RSV (24 bits) and OP (8 bits) of 30_encoding.md R68
and R70 -/

theorem test_decode_vadInit :
    decodeCommand .vad ((0b000000000000000000000000 : BitVec 24) ++ (0b00000001 : BitVec 8)) = .ok .vadInit := by
  decide
theorem test_decode_vadSetmode :
    decodeCommand .vad ((0b000000000000000000000000 : BitVec 24) ++ (0b00000010 : BitVec 8)) = .ok .vadSetmode := by
  decide
theorem test_decode_vadProcess :
    decodeCommand .vad ((0b000000000000000000000000 : BitVec 24) ++ (0b00000011 : BitVec 8)) = .ok .vadProcess := by
  decide
theorem test_decode_mp3DecodeS16 :
    decodeCommand .mp3 ((0b000000000000000000000000 : BitVec 24) ++ (0b00000001 : BitVec 8)) = .ok .mp3DecodeS16 := by
  decide
theorem test_decode_mp3DecodeF32 :
    decodeCommand .mp3 ((0b000000000000000000000000 : BitVec 24) ++ (0b00000010 : BitVec 8)) = .ok .mp3DecodeF32 := by
  decide
theorem test_decode_mp3Reset :
    decodeCommand .mp3 ((0b000000000000000000000000 : BitVec 24) ++ (0b00000011 : BitVec 8)) = .ok .mp3Reset := by
  decide

/-- Vectors A10 to A15 of section 2.1: the cause of each illegal word. -/
theorem test_decode_refusals :
    decodeCommand .vad 0x00000000 = .error .unknownOpcode ∧ decodeCommand .vad 0x00000004 = .error .unknownOpcode
    ∧ decodeCommand .mp3 0x000000FF = .error .unknownOpcode ∧ decodeCommand .vad 0x00000103 = .error .reservedBits
    ∧ decodeCommand .vad 0x00000104 = .error .unknownOpcode ∧ decodeCommand .mp3 0x80000001 = .error .reservedBits := by
  decide

/-- The table's rows: a VAD row as its 32 bits, an MP3 row with its register's offset above them (log 5). -/
theorem test_table_words :
    decodeTableWord 32 0x00000001 = some .vadInit ∧ decodeTableWord 32 0x00000002 = some .vadSetmode
    ∧ decodeTableWord 32 0x00000003 = some .vadProcess ∧ decodeTableWord 32 0x00000004 = none
    ∧ decodeTableWord 64 0x0000004000000001 = some .mp3DecodeS16
    ∧ decodeTableWord 64 0x0000004000000002 = some .mp3DecodeF32
    ∧ decodeTableWord 64 0x0000004000000003 = some .mp3Reset := by decide

/-- Offsets of 10_state.md R11, and vectors A1 and A22. -/
theorem test_register_map :
    regAt 0x000 = some .vadCmd ∧ regAt 0x034 = some .vadHistNoi ∧ regAt 0x038 = none ∧ regAt 0x040 = some .mp3Cmd
    ∧ regAt 0x07C = some .irqStatus ∧ regAt 0x800 = some (.rbWin 0) ∧ regAt 0x133C = some (.rbWin 719)
    ∧ regAt 0x1340 = none := by decide

/-- 30_encoding.md R78: MP3_DEC16 is four argument writes, the command and a wait for DONE or CMD_ERR. -/
theorem test_pseudo_mp3Dec16 :
    Pseudo.encode (.mp3Dec16 0x40000 4096 0x50000 0x60000)
      = [.write 0x048 .w32 0x40000, .write 0x04C .w32 4096, .write 0x050 .w32 0x50000, .write 0x054 .w32 0x60000,
          .write 0x040 .w32 1, .pollAny 0x044 6] := by decide

/-! ### The pure functions -/

/-- Section 2.2: exact products, clips and ties. -/
theorem test_quant_rounding :
    ∀ e ∈ [((0x3F000000 : Word), (16384 : Int)), (0xBE800000, -8192), (0x3F800000, 32767), (0xBF800000, -32767),
      (0x38000000, 1), (0x37800000, 1), (0xB7800000, -1), (0x37000000, 0), (0x38A00000, 3)],
      (quant e.1).toInt = e.2 := by decide

/-- Section 2.2: the neighbourhood of the upper clip, and decimal fractions. -/
theorem test_quant_edges :
    ∀ e ∈ [((0xB8A00000 : Word), (-3 : Int)), (0x3F7FFE00, 32767), (0x3F7FFF00, 32767), (0x3F7FFD00, 32767),
      (0x3F7FFCFF, 32766), (0x3DCCCCCD, 3277), (0xBDCCCCCD, -3277), (0x38400000, 2)],
      (quant e.1).toInt = e.2 := by decide

/-- Section 2.2: zeros, subnormals, the largest values, infinities and NaNs. -/
theorem test_quant_specials :
    ∀ e ∈ [((0x80000000 : Word), (0 : Int)), (0x00000001, 0), (0x0000003F, 0), (0x7F7FFFFF, 32767),
      (0xFF7FFFFF, -32767), (0x7F800000, 32767), (0xFF800000, -32767), (0x7FC00000, 0), (0x7F800001, 0)],
      (quant e.1).toInt = e.2 := by decide

/-- Section 2.3, the rows in which the floored threshold would differ among them. -/
theorem test_decide_table :
    ∀ r ∈ [(((0, 0, 0, 0) : Nat × Nat × Nat × Nat), (0 : Int)), ((1, 0, 9, 0), -1), ((0, 1, 0, 0), 0),
      ((0, 0, 1, 0), 1), ((0, 1, 1, 0), 0), ((0, 1, 2, 0), 0), ((0, 1, 3, 0), 0), ((0, 1, 4, 0), 1),
      ((0, 0, 4, 1), 1), ((0, 2, 4, 0), 0), ((0, 2, 7, 0), 0), ((0, 2, 8, 0), 1), ((0, 0, 8, 2), 1)],
      decideEvent { e := r.1.1, s := r.1.2.1, v := r.1.2.2.1, n := r.1.2.2.2 } = r.2 := by decide

/-- Section 2.5, S17 to S22. -/
theorem test_process_args :
    checkProcessArgs 0x00000003 0 = none ∧ checkProcessArgs 0x00000001 3 = none
    ∧ checkProcessArgs 0x00001002 4 = some .misaligned ∧ checkProcessArgs 0xFFFFFFF8 8 = none
    ∧ checkProcessArgs 0xFFFFFFF8 12 = some .rangeWrap ∧ checkProcessArgs 0xFFFFFFF9 12 = some .misaligned := by
  decide

/-- Section 2.6, M1 to M14. -/
theorem test_decode_args :
    checkDecodeArgs .s16 0x40000 4096 0x50000 0x50000 = some .bufferOverlap
    ∧ checkDecodeArgs .s16 0x40000 4096 0x50000 0x50900 = none
    ∧ checkDecodeArgs .s16 0x40000 4096 0x508FF 0x50000 = some .bufferOverlap
    ∧ checkDecodeArgs .f32 0x40000 4096 0x50000 0x50900 = some .bufferOverlap
    ∧ checkDecodeArgs .f32 0x40000 4096 0x50000 0x51200 = none
    ∧ checkDecodeArgs .s16 0x40000 4096 0xFFFFF700 0x50000 = none
    ∧ checkDecodeArgs .s16 0x40000 4096 0xFFFFF701 0x50000 = some .rangeWrap
    ∧ checkDecodeArgs .f32 0x40000 4096 0x50000 0xFFFFEE01 = some .rangeWrap
    ∧ checkDecodeArgs .s16 0xFFFFF000 0x1000 0x50000 0x60000 = none
    ∧ checkDecodeArgs .s16 0xFFFFF000 0x1001 0x50000 0x50000 = some .rangeWrap := by decide

/-- 20_memory.md R49, section 2.2's byte order check: bytes 00 00 00 3F are the word 0x3F000000. -/
theorem test_byte_order :
    wordAt [(0x10, 0x00), (0x11, 0x00), (0x12, 0x00), (0x13, 0x3F)] 0x10 = some 0x3F000000 := by decide

/-! ### States for the single steps and the witnesses -/

/-- The reset state at an agent's turn. -/
def rested (a : Agent) : State := atTurn a State.reset

/-- The latched arguments that the VAD states use: 8000 Hz, 8 bytes at 0x1000. -/
def runOf (seq : VadSeq) : VadRun := { rateA := 8000, addrA := 0x1000, blenA := 8, seq := seq }

/-- The VAD unit running a command, at its own turn. -/
def running (seq : VadSeq) : State :=
  { rested .vadUnit with vad := { State.reset.vad with run := some (runOf seq) } }

/-- The iterator's working state with an offset and a rest. -/
def workOf (off rem : Nat) : ProcWork :=
  { rate := 8000, flen := 240, off := off, rem := rem, p := 0x1000, hist := countsZero }

/-- The MP3 unit running an MP3_DECODE_* with input length `len`, at its own turn. -/
def decoding (fmt : Fmt) (len : Word) (pos : DecPos) : State :=
  { rested .mp3Unit with
    mp3 := { State.reset.mp3 with
      run := some
        { inA := 0x40000, lenA := len, leftA := 0x50000, rightA := 0x60000, seq := .decode fmt pos } } }

/-- The bootstrap's working state in `head` after one call. -/
def headOnce : Boot := { bst := .head, ncalls := 1, hp1 := false, hp2 := false, hp3 := false }

/-- What a step's next state holds, none where it has none. -/
def heldBy {α : Type} (f : State → α) : Result → Option α
  | .next t => some (f t)
  | _ => none

/-! ### One step of each command -/

/-- A16: an accepted VAD_INIT clears DONE and sets BUSY. -/
theorem test_vadInit_accepts :
    heldBy (fun t => vadStatusWord t.vad)
      (exec .vadInit { rested .host with vad := { State.reset.vad with done := true } }) = some 0x001 := by decide

/-- S14: at its end VAD_INIT leaves the session at 0, RESULT 1 and STATUS 0x002. -/
theorem test_vadInit_completes :
    heldBy (fun t => [t.vad.rate, t.vad.flen, t.vad.off, t.vad.result, vadStatusWord t.vad])
      (exec .vadInit { running (.init true) with
        vad := { (running (.init true)).vad with
          rate := 16000, flen := 480, off := 200, rateReject := true } }) = some [0, 0, 0, 1, 0x002] := by decide

/-- VAD_SETMODE running with mode operand `m`, the mode being 1. -/
def settingMode (m : Word) : State :=
  { rested .vadUnit with
    vad := { State.reset.vad with mode := 1, run := some { runOf .setmode with rateA := m } } }

/-- S10: VAD_SETMODE 3. -/
theorem test_vadSetmode_sets :
    heldBy (fun t => (t.vad.mode, t.vad.result)) (exec .vadSetmode (settingMode 3)) = some (3, 1) := by decide

/-- S11, S12: VAD_SETMODE 4 and 0x100 leave the mode. -/
theorem test_vadSetmode_refuses :
    heldBy (fun t => (t.vad.mode, t.vad.result)) (exec .vadSetmode (settingMode 4)) = some (1, 0)
    ∧ heldBy (fun t => (t.vad.mode, t.vad.result)) (exec .vadSetmode (settingMode 0x100)) = some (1, 0) := by decide

/-- S2: VAD_PROCESS at 44100 Hz ends with RESULT -1 and STATUS 0x102, and locks nothing. -/
theorem test_vadProcess_rate_reject :
    heldBy (fun t => [t.vad.result, vadStatusWord t.vad, t.vad.rate, t.vad.flen])
      (exec .vadProcess { running (.process .start) with
        vad := { State.reset.vad with run := some { runOf (.process .start) with rateA := 44100 } } })
      = some [0xFFFFFFFF, 0x102, 0, 0] := by decide

/-- Program P5's first sample: the word 0x3F000000 goes into RB[0] as 16384, and the same step asks for the second
word. -/
theorem test_vadProcess_takes_sample :
    heldBy (fun t => (t.vad.rb, t.vad.memPort, t.vad.run.map VadRun.seq))
      (exec .vadProcess { running (.process (.memWait (workOf 0 2))) with
        vad := { (running (.process (.memWait (workOf 0 2)))).vad with memPort := .answered 0x3F000000 } })
      = some ([(0, 16384)], .pending 0x1004, some (.process (.memWait { workOf 1 1 with p := 0x1004 }))) := by decide

/-- 40_mp3_bootstrap.md R80: the first call of MP3_DECODE_S16 feeds the input with format S16. -/
theorem test_mp3DecodeS16_calls :
    heldBy (fun t => t.mp3.idecPort) (exec .mp3DecodeS16 (decoding .s16 4096 (.call bootStart)))
      = some (.pending { fmt := .s16, inPtr := 0x40000, inLen := 4096, left := 0x50000, right := 0x60000 }) := by
  decide

/-- Section 2.7's row of 1152 samples at once: MP3_TRACE 0x309, STATUS 0x002. -/
theorem test_mp3DecodeS16_finishes :
    heldBy (fun t => [t.mp3.n, t.mp3.samples, mp3StatusWord t.mp3, traceWord t.mp3.trace])
      (exec .mp3DecodeS16 (decoding .s16 4096
        (.finish { bst := .done, ncalls := 1, hp1 := true, hp2 := false, hp3 := false } 1152)))
      = some [1152, 1152, 0x002, 0x309] := by decide

/-- A flush call of MP3_DECODE_F32: address and length 0, format F32. -/
theorem test_mp3DecodeF32_flushes :
    heldBy (fun t => t.mp3.idecPort) (exec .mp3DecodeF32 (decoding .f32 4096 (.call headOnce)))
      = some (.pending { fmt := .f32, inPtr := 0, inLen := 0, left := 0x50000, right := 0x60000 }) := by decide

/-- The skip path with answer (-1, 0): ERROR, no NEED_MORE, MP3_TRACE 0x005. -/
theorem test_mp3DecodeF32_skip_error :
    heldBy (fun t => [t.mp3.n, t.mp3.samples, mp3StatusWord t.mp3, traceWord t.mp3.trace])
      (exec .mp3DecodeF32 (decoding .f32 0
        (.finish { bst := .init, ncalls := 1, hp1 := false, hp2 := false, hp3 := false } 0xFFFFFFFF)))
      = some [0xFFFFFFFF, 0, 0x102, 0x005] := by decide

/-- E1: MP3_RESET completes with MP3_STATUS 0x002 and every result 0. -/
theorem test_mp3Reset_completes :
    heldBy (fun t => [t.mp3.n, t.mp3.samples, mp3StatusWord t.mp3, traceWord t.mp3.trace])
      (exec .mp3Reset { rested .mp3Unit with
        mp3 := { State.reset.mp3 with
          n := 7, samples := 7, error := true,
          run := some { inA := 0, lenA := 0, leftA := 0, rightA := 0, seq := .reset true } } })
      = some [0, 0, 0x002, 0] := by decide

/-- A9: writing 0xE to MP3_STATUS 0x25E leaves 0x200. -/
theorem test_mp3_status_write :
    mp3StatusWord (mp3StatusWrite 0xE { State.reset.mp3 with
      needMore := true, errCause := .bufferOverlap, overrun := true, cmdErr := true, done := true }) = 0x200 := by
  decide

/-- A17 and A19: an illegal word while BUSY sets OVERRUN alone; a second rejection replaces the cause. -/
theorem test_vad_command_writes :
    heldBy (fun t => vadStatusWord t.vad) (commandWrite .vad 0 (atTurn .host (running .setmode))) = some 0x009
    ∧ heldBy (fun t => vadStatusWord t.vad) (commandWrite .vad 0x103
        (reject .vad .unknownOpcode (rested .host))) = some 0x024 := by decide

/-! ### Reachable states: each meets the invariant -/

/-- Ring cells 0 to `n - 1`, from index `k` on, each holding the sample 0. -/
def zeros : Nat → Nat → Cells 16
  | _, 0 => []
  | k, n + 1 => (k, 0) :: zeros (k + 1) n

theorem zeros_get (n k i : Nat) (h : k ≤ i) (h2 : i < k + n) : cellGet (zeros k n) i = some 0 := by
  induction n generalizing k with
  | zero => omega
  | succ n ih =>
    unfold zeros cellGet
    split
    · rfl
    · exact ih (k + 1) (by omega) (by omega)

theorem zeros_index (n k : Nat) (c : Nat × BitVec 16) (h : c ∈ zeros k n) : k ≤ c.1 ∧ c.1 < k + n := by
  induction n generalizing k with
  | zero => simp [zeros] at h
  | succ n ih =>
    rcases List.mem_cons.1 h with rfl | h
    · simp
    · have := ih (k + 1) h; omega

theorem zeros_wf (n k : Nat) : CellsWf (zeros k n) := by
  induction n generalizing k with
  | zero => exact List.Pairwise.nil
  | succ n ih =>
    refine List.pairwise_cons.2 ⟨fun a ha => ?_, ih (k + 1)⟩
    obtain ⟨c, hc, rfl⟩ := List.mem_map.1 ha
    have := zeros_index n (k + 1) c hc
    omega

/-- A VAD unit locked to 8000 Hz with an overhang of 239 zero samples, one short of a frame, and a command of one
sample at 0x1000. -/
def locked (seq : VadSeq) (log : List (Word × Word)) (mp : Port Word Word) (ip : Port IvadReq (BitVec 2)) : VadUnit :=
  { State.reset.vad with
    rate := 8000, flen := 240, off := 239, rb := zeros 0 240, memPort := mp, memLog := log, ivadPort := ip,
    run := some { rateA := 8000, addrA := 0x1000, blenA := 4, seq := seq } }

/-- The state with that unit, at an agent's turn, four bytes of memory at 0x1000. -/
def lockedAt (a : Agent) (u : VadUnit) : State :=
  { rested a with vad := u, mem := [(0x1000, 0), (0x1001, 0), (0x1002, 0), (0x1003, 0)] }

/-- The unit before its first step. -/
def atStart : VadUnit := locked (.process .start) [] .idle .idle

/-- The iterator at its start and at the full frame. -/
def firstWork : ProcWork := { rate := 8000, flen := 240, off := 239, rem := 1, p := 0x1000, hist := countsZero }
def fullWork : ProcWork := { rate := 8000, flen := 240, off := 240, rem := 0, p := 0x1004, hist := countsZero }

/-- The unit that waits for its one sample. -/
def atRead : VadUnit := locked (.process (.memWait firstWork)) [] (.pending 0x1000) .idle

/-- The frame that the unit sends. -/
def fullRequest : IvadReq := { mode := 0, rate := 8000, flen := 240, samples := ringPrefix atRead 240 }

/-- The unit that waits for the verdict on its frame. -/
def atVerdict : VadUnit := locked (.process (.ivadWait fullWork)) [(0x1000, 0)] .idle (.pending fullRequest)

/-- The iterator once the verdict is counted, and the unit there. -/
def endWork : ProcWork :=
  { rate := 8000, flen := 240, off := 0, rem := 0, p := 0x1004, hist := { e := 0, s := 0, v := 1, n := 0 } }
def atEnd : VadUnit := locked (.process (.loop endWork)) [(0x1000, 0)] .idle .idle

theorem locked_ok (seq : VadSeq) (log : List (Word × Word)) (mp : Port Word Word) (ip : Port IvadReq (BitVec 2))
    (h : VadRunOk (locked seq log mp ip)) : VadOk (locked seq log mp ip) := by
  refine ⟨⟨fun h => ?_, fun _ => ⟨(by decide : (8000 : Word) ∈ Config.rates), (by decide : (240 : Word) = flenOf 8000),
    (by decide : (239 : Word).toNat < (240 : Word).toNat)⟩, .inr (.inl rfl), fun h => ?_,
    (by decide : (0 : Word).toNat + (0 : Word).toNat + (0 : Word).toNat + (0 : Word).toNat < 8388608)⟩,
    ⟨zeros_wf _ _, fun c hc => ?_, fun k hk => ?_⟩, h, fun r hr => ?_⟩
  · cases h
  · cases h
  · have := zeros_index 240 0 c hc; simp only [Config.rbCap]; omega
  · have hk : k < 239 := hk
    show (cellGet (zeros 0 240) k).isSome = true
    rw [zeros_get 240 0 k (by omega) (by omega)]; rfl
  · simp [locked, State.reset, VadUnit.reset] at hr

theorem firstWork_ok (seq : VadSeq) (mp : Port Word Word) (ip : Port IvadReq (BitVec 2)) :
    WorkOk (locked seq [] mp ip) { rateA := 8000, addrA := 0x1000, blenA := 4, seq := seq } firstWork := by
  refine ⟨rfl, by decide, (by decide : 1 ≤ sampleCount 4),
    (by decide : 0x1000 + 4 * 1 = (0x1000 : Word).toNat + 4 * sampleCount 4),
    (by decide : 0 * 240 + 239 + 1 = (239 : Word).toNat + sampleCount 4), fun k hk => ?_,
    (by decide : ([] : List (Word × Word)).reverse.map Prod.fst
      = (List.range (sampleCount 4 - 1)).map (fun i => BitVec.ofNat 32 ((0x1000 : Word).toNat + 4 * i))),
    fun k hk hk2 => ?_⟩
  · have hk : k < 239 := hk
    show (cellGet (zeros 0 240) k).isSome = true
    rw [zeros_get 240 0 k (by omega) (by omega)]; rfl
  · have hk : k < 239 := hk
    have hk2 : 239 ≤ 0 * 240 + k := hk2
    omega

theorem fullWork_ok (seq : VadSeq) (mp : Port Word Word) (ip : Port IvadReq (BitVec 2)) :
    WorkOk (locked seq [(0x1000, 0)] mp ip) { rateA := 8000, addrA := 0x1000, blenA := 4, seq := seq } fullWork := by
  refine ⟨rfl, by decide, (by decide : 0 ≤ sampleCount 4),
    (by decide : 0x1004 + 4 * 0 = (0x1000 : Word).toNat + 4 * sampleCount 4),
    (by decide : 0 * 240 + 240 + 0 = (239 : Word).toNat + sampleCount 4), fun k hk => ?_,
    (by decide : ([(0x1000, 0)] : List (Word × Word)).reverse.map Prod.fst
      = (List.range (sampleCount 4 - 0)).map (fun i => BitVec.ofNat 32 ((0x1000 : Word).toNat + 4 * i))),
    fun k hk hk2 => ?_⟩
  · have hk : k < 240 := hk
    show (cellGet (zeros 0 240) k).isSome = true
    rw [zeros_get 240 0 k (by omega) (by omega)]; rfl
  · have hk : k < 240 := hk
    have hk2 : 239 ≤ 0 * 240 + k := hk2
    obtain rfl : k = 239 := by omega
    exact ⟨(0x1000, 0), rfl, zeros_get 240 0 239 (by omega) (by omega)⟩

theorem endWork_ok (seq : VadSeq) (mp : Port Word Word) (ip : Port IvadReq (BitVec 2)) :
    WorkOk (locked seq [(0x1000, 0)] mp ip) { rateA := 8000, addrA := 0x1000, blenA := 4, seq := seq } endWork := by
  refine ⟨rfl, by decide, (by decide : 0 ≤ sampleCount 4),
    (by decide : 0x1004 + 4 * 0 = (0x1000 : Word).toNat + 4 * sampleCount 4),
    (by decide : 1 * 240 + 0 + 0 = (239 : Word).toNat + sampleCount 4), fun k hk => ?_,
    (by decide : ([(0x1000, 0)] : List (Word × Word)).reverse.map Prod.fst
      = (List.range (sampleCount 4 - 0)).map (fun i => BitVec.ofNat 32 ((0x1000 : Word).toNat + 4 * i))),
    fun k hk => ?_⟩
  · exact absurd hk (Nat.not_lt_zero k)
  · exact absurd hk (Nat.not_lt_zero k)

/-- The unit with its one word answered, which fills the frame. -/
def atAnswerRun : VadRun := { rateA := 8000, addrA := 0x1000, blenA := 4, seq := .process (.memWait firstWork) }
def atAnswer : VadUnit := locked atAnswerRun.seq [] (.answered 0) .idle

/-- The unit with an overhang of 238 and two samples to read, the first one's word answered. -/
def secondWork : ProcWork := { rate := 8000, flen := 240, off := 238, rem := 2, p := 0x1000, hist := countsZero }
def atSecondRun : VadRun := { rateA := 8000, addrA := 0x1000, blenA := 8, seq := .process (.memWait secondWork) }
def atSecond : VadUnit := { locked .setmode [] (.answered 0) .idle with off := 238, run := some atSecondRun }

theorem secondWork_ok : WorkOk atSecond atSecondRun secondWork := by
  refine ⟨rfl, by decide, (by decide : 2 ≤ sampleCount 8),
    (by decide : 0x1000 + 4 * 2 = (0x1000 : Word).toNat + 4 * sampleCount 8),
    (by decide : 0 * 240 + 238 + 2 = (238 : Word).toNat + sampleCount 8), fun k hk => ?_,
    (by decide : ([] : List (Word × Word)).reverse.map Prod.fst
      = (List.range (sampleCount 8 - 2)).map (fun i => BitVec.ofNat 32 ((0x1000 : Word).toNat + 4 * i))),
    fun k hk hk2 => ?_⟩
  · have hk : k < 238 := hk
    show (cellGet (zeros 0 240) k).isSome = true
    rw [zeros_get 240 0 k (by omega) (by omega)]; rfl
  · have hk : k < 238 := hk
    have hk2 : 238 ≤ 0 * 240 + k := hk2
    omega

theorem reset_vad_ok : VadOk State.reset.vad :=
  ⟨⟨fun _ => ⟨rfl, rfl⟩, fun h => absurd rfl h, .inr (.inl rfl), (fun h => by cases h), by decide⟩,
    ⟨List.Pairwise.nil, fun c hc => by simp [State.reset, VadUnit.reset] at hc,
      fun k hk => absurd hk (Nat.not_lt_zero k)⟩, ⟨rfl, rfl⟩,
    fun r hr => by simp [State.reset, VadUnit.reset] at hr⟩

theorem reset_mp3_ok : Mp3Ok State.reset.mp3 :=
  ⟨⟨rfl, rfl, rfl, (fun h => by cases h), fun _ => .inr rfl⟩, rfl,
    fun r hr => by simp [State.reset, Mp3Unit.reset] at hr⟩

/-- A state with a good VAD unit and nothing else changed since reset meets the invariant. -/
theorem lockedAt_inv (a : Agent) (u : VadUnit) (h : VadOk u) : (lockedAt a u).Inv :=
  ⟨(by decide : Memory.wf [(0x1000, 0), (0x1001, 0), (0x1002, 0), (0x1003, 0)]), List.Pairwise.nil,
    List.Pairwise.nil, h, reset_mp3_ok⟩

theorem atStart_inv (a : Agent) : (lockedAt a atStart).Inv :=
  lockedAt_inv a _ (locked_ok _ _ _ _ ⟨by decide, rfl, rfl, rfl⟩)

theorem atRead_inv (a : Agent) : (lockedAt a atRead).Inv :=
  lockedAt_inv a _ (locked_ok _ _ _ _ ⟨by decide, firstWork_ok _ _ _, by decide, by decide, rfl, .inl rfl⟩)

theorem atVerdict_inv (a : Agent) : (lockedAt a atVerdict).Inv :=
  lockedAt_inv a _ (locked_ok _ _ _ _ ⟨by decide, fullWork_ok _ _ _, by decide, rfl, .inl rfl⟩)

theorem atEnd_inv (a : Agent) : (lockedAt a atEnd).Inv :=
  lockedAt_inv a _ (locked_ok _ _ _ _ ⟨by decide, endWork_ok _ _ _, rfl, rfl⟩)

/-- The unit with a VAD_PROCESS of three bytes, before its first step. -/
def atEmpty : VadUnit :=
  { atStart with run := some { rateA := 8000, addrA := 0x1000, blenA := 3, seq := .process .start } }

/-- The unit with a VAD_INIT whose reset pulse is done. -/
def atInit : VadUnit := locked (.init true) [] .idle .idle

theorem atEmpty_inv (a : Agent) : (lockedAt a atEmpty).Inv := by
  have h : VadOk atStart := locked_ok _ _ _ _ ⟨by decide, rfl, rfl, rfl⟩
  refine lockedAt_inv a _ ⟨⟨h.committed.unlocked, h.committed.locked, h.committed.event, h.committed.rejected,
    h.committed.total⟩, ⟨h.ring.wf, h.ring.inside, h.ring.overhang⟩, ⟨by decide, rfl, rfl, rfl⟩, h.requests⟩

theorem atSecond_inv (a : Agent) : (lockedAt a atSecond).Inv := by
  have h : VadOk atStart := locked_ok _ _ _ _ ⟨by decide, rfl, rfl, rfl⟩
  refine lockedAt_inv a _ ⟨⟨fun h0 => absurd h0 (by decide), fun _ => ⟨(by decide : (8000 : Word) ∈ Config.rates),
    (by decide : (240 : Word) = flenOf 8000), (by decide : (238 : Word).toNat < (240 : Word).toNat)⟩,
    h.committed.event, h.committed.rejected, h.committed.total⟩,
    ⟨h.ring.wf, h.ring.inside, fun k hk => ?_⟩,
    ⟨by decide, secondWork_ok, by decide, by decide, rfl, .inr ⟨0, rfl⟩⟩, h.requests⟩
  have hk : k < 238 := hk
  show (cellGet (zeros 0 240) k).isSome = true
  rw [zeros_get 240 0 k (by omega) (by omega)]; rfl

theorem atInit_inv (a : Agent) : (lockedAt a atInit).Inv :=
  lockedAt_inv a _ (locked_ok _ _ _ _ ⟨rfl, rfl⟩)

/-- A reset state whose MP3 unit runs an MP3_DECODE_S16 meets the invariant where the position does. -/
theorem decoding_inv (len : Word) (pos : DecPos)
    (hc : checkDecodeArgs .s16 0x40000 len 0x50000 0x60000 = none)
    (h : DecOk (decoding .s16 len pos).mp3
      { inA := 0x40000, lenA := len, leftA := 0x50000, rightA := 0x60000, seq := .decode .s16 pos } .s16 pos) :
    (decoding .s16 len pos).Inv := by
  refine ⟨(by decide : Memory.wf []), List.Pairwise.nil, List.Pairwise.nil, reset_vad_ok, ?_⟩
  exact ⟨⟨rfl, rfl, rfl, (fun h => by cases h), fun _ => .inr rfl⟩, ⟨hc, h⟩, reset_mp3_ok.requests⟩

/-! ### Witnesses: for each obligation with hypotheses, a state and operands that meet them all, at boundary values -/

/-- The state whose next turn is an agent's, with one coming host transaction. -/
def coming (a : Agent) (op : HostOp) (s : State) : State :=
  { s with env := { s.env with turn := a, sched := [a], hostOps := [op] } }

/-- Both units at the end of a command. -/
def bothRunning (a : Agent) : State :=
  { rested a with vad := atInit, mp3 := (decoding .s16 4096 (.call bootStart)).mp3 }

theorem witness_IllegalWordsAreRejectedWithTheirCause :
    busy .vad (rested .host) = false ∧ busy .mp3 (rested .host) = false
    ∧ (opField 0x00000000 ≠ 1 ∧ opField 0x00000000 ≠ 2 ∧ opField 0x00000000 ≠ 3)
    ∧ (opField 0x00000104 ≠ 1 ∧ opField 0x00000104 ≠ 2 ∧ opField 0x00000104 ≠ 3)
    ∧ (opField 0x00000101 = 1 ∧ rsvField 0x00000101 ≠ 0) ∧ (opField 0x80000003 = 3 ∧ rsvField 0x80000003 ≠ 0)
    ∧ heldBy (fun t => vadStatusWord t.vad) (windowWrite 0x000 .w32 0x104 (rested .host)) = some 0x014
    ∧ heldBy (fun t => mp3StatusWord t.mp3) (windowWrite 0x040 .w32 0x101 (rested .host)) = some 0x024 := by
  decide

theorem witness_StepRunsTheIssuedCommand :
    (takeTurn (coming .host (.write 0x040 .w32 3) State.reset)).env.turn = .host
    ∧ (coming .host (.write 0x040 .w32 3) State.reset).env.hostOps = .write 0x040 .w32 3 :: []
    ∧ decodeIssue (0x040 : BitVec 13).toNat 3 = some .mp3Reset
    ∧ (takeTurn (coming .host (.write 0x000 .w32 1) State.reset)).env.turn = .host
    ∧ decodeIssue (0x000 : BitVec 13).toNat 1 = some .vadInit := by decide

theorem witness_StepRunsTheLatchedCommand :
    ((takeTurn (coming .vadUnit .assertRst (running .setmode))).env.turn = .vadUnit
      ∧ (coming .vadUnit .assertRst (running .setmode)).vad.run = some (runOf .setmode))
    ∧ ((takeTurn (coming .mp3Unit .assertRst (bothRunning .host))).env.turn = .mp3Unit
      ∧ (bothRunning .host).mp3.run.isSome = true)
    ∧ ((takeTurn (coming .vadUnit .assertRst State.reset)).env.turn = .vadUnit ∧ State.reset.vad.run = none)
    ∧ ((takeTurn (coming .mp3Unit .assertRst State.reset)).env.turn = .mp3Unit ∧ State.reset.mp3.run = none) := by
  decide

theorem witness_BusyCommandWriteOnlySetsOverrun :
    (bothRunning .host).env.turn = .host ∧ vadBusy (bothRunning .host).vad = true
    ∧ mp3Busy (bothRunning .host).mp3 = true := by decide

/-- Each clause at a boundary: one sample misaligned; the first wrapping range; count 0; a range that ends at 2^32. -/
theorem witness_VadProcessChecksAlignmentThenRange :
    (rested .host).env.turn = .host ∧ (rested .host).vad.run = none
    ∧ (0 < (4 : Word).toNat / 4 ∧ (0x1002 : Word).toNat % 4 ≠ 0)
    ∧ (0 < (12 : Word).toNat / 4 ∧ (0xFFFFFFF8 : Word).toNat % 4 = 0
      ∧ 2 ^ 32 < (0xFFFFFFF8 : Word).toNat + 4 * ((12 : Word).toNat / 4))
    ∧ (3 : Word).toNat / 4 = 0
    ∧ ((0xFFFFFFF8 : Word).toNat % 4 = 0 ∧ (0xFFFFFFF8 : Word).toNat + 4 * ((8 : Word).toNat / 4) ≤ 2 ^ 32) := by
  decide

theorem witness_VadProcessChecks_states :
    (withVadArgs 8000 0xFFFFFFF8 8 (rested .host)).env.turn = .host
    ∧ (withVadArgs 8000 0xFFFFFFF8 8 (rested .host)).vad.run = none
    ∧ heldBy (fun t => vadStatusWord t.vad) (exec .vadProcess (withVadArgs 8000 0xFFFFFFF8 8 (rested .host)))
      = some 0x001
    ∧ heldBy (fun t => vadStatusWord t.vad) (exec .vadProcess (withVadArgs 8000 0x1002 4 (rested .host)))
      = some 0x034 := by decide

/-- Each branch at a boundary: M9 (range), M4 (overlap), M3 (adjacent regions). -/
theorem witness_Mp3DecodeChecksRangesThenOverlap :
    (withMp3Args 0x40000 4096 0x50000 0x50900 (rested .host)).env.turn = .host
    ∧ (withMp3Args 0x40000 4096 0x50000 0x50900 (rested .host)).mp3.run = none
    ∧ heldBy (fun t => mp3StatusWord t.mp3)
        (exec .mp3DecodeS16 (withMp3Args 0x40000 4096 0x50000 0x50900 (rested .host))) = some 0x001
    ∧ heldBy (fun t => mp3StatusWord t.mp3)
        (exec .mp3DecodeS16 (withMp3Args 0x40000 4096 0x50000 0x508FF (rested .host))) = some 0x054
    ∧ heldBy (fun t => mp3StatusWord t.mp3)
        (exec .mp3DecodeF32 (withMp3Args 0x40000 4096 0x50000 0xFFFFEE01 (rested .host))) = some 0x044 := by decide

theorem witness_IdleUnitsAcceptAndLatch :
    (rested .host).env.turn = .host ∧ (rested .host).vad.run = none ∧ (rested .host).mp3.run = none := by decide

theorem witness_VadInitRunsToItsEnd : (rested .host).env.turn = .host ∧ (rested .host).vad.run = none := by decide

theorem witness_VadSetmodeRunsToItsEnd :
    (withVadArgs 3 0 0 (rested .host)).env.turn = .host ∧ (withVadArgs 3 0 0 (rested .host)).vad.run = none
    ∧ (withVadArgs 3 0 0 (rested .host)).vad.arg0.toNat ≤ 3
    ∧ (withVadArgs 4 0 0 (rested .host)).env.turn = .host ∧ (withVadArgs 4 0 0 (rested .host)).vad.run = none
    ∧ ¬(withVadArgs 4 0 0 (rested .host)).vad.arg0.toNat ≤ 3 := by decide

theorem witness_RateCheckFollowsTheLock :
    State.reset.vad.rate = 0 ∧ (48000 : Word) = 48000
    ∧ ¬((0 : Word) = 8000 ∨ (0 : Word) = 16000 ∨ (0 : Word) = 32000 ∨ (0 : Word) = 48000)
    ∧ atStart.rate ≠ 0 ∧ (8001 : Word) ≠ atStart.rate ∧ (8000 : Word) = atStart.rate := by decide

theorem witness_RateFailureCompletesWithoutProcessing :
    (lockedAt .vadUnit { atStart with run := some { runOf (.process .start) with rateA := 16000 } }).env.turn = .vadUnit
    ∧ rateCheck 16000 atStart = none ∧ rateCheck 44100 State.reset.vad = none := by decide

/-- Each way to the head of the loop: the start, a verdict, an answered word. -/
theorem witness_IteratorReadsTheNextSample :
    (AtHead (lockedAt .vadUnit atStart) { rateA := 8000, addrA := 0x1000, blenA := 4, seq := .process .start } firstWork
        (lockedAt .vadUnit atStart)
      ∧ firstWork.off < firstWork.flen.toNat ∧ 0 < firstWork.rem ∧ firstWork.p % 4 = 0 ∧ firstWork.p + 4 ≤ 2 ^ 32)
    ∧ (AtHead (running (.process (.loop (workOf 239 1)))) (runOf (.process (.loop (workOf 239 1)))) (workOf 239 1)
        (running (.process (.loop (workOf 239 1))))
      ∧ (workOf 239 1).off < (workOf 239 1).flen.toNat ∧ 0 < (workOf 239 1).rem
      ∧ (running (.process (.loop (workOf 239 1)))).env.turn = .vadUnit)
    ∧ (∃ w u, AtHead (lockedAt .vadUnit atSecond) atSecondRun w u
      ∧ w.off < w.flen.toNat ∧ 0 < w.rem ∧ w.p % 4 = 0 ∧ w.p + 4 ≤ 2 ^ 32) :=
  ⟨⟨.start _ _ rfl rfl, by decide⟩, ⟨.verdict _ rfl, by decide⟩,
    ⟨_, _, .sample secondWork 0 rfl rfl (by decide), by decide⟩⟩

/-- The last index of RB with nothing left to read, and a sample with another one after it. -/
theorem witness_SampleGoesQuantizedIntoTheRing :
    let s := running (.process (.memWait (workOf 1439 1)))
    s.env.turn = .vadUnit ∧ s.vad.run = some (runOf (.process (.memWait (workOf 1439 1))))
    ∧ { s with vad := { s.vad with memPort := .answered 0x3F000000 } }.vad.memPort = .answered 0x3F000000
    ∧ (workOf 1439 1).off < 1440 ∧ ¬ 0 < (workAfterSample (workOf 1439 1)).rem
    ∧ 0 < (workAfterSample (workOf 0 2)).rem ∧ (workAfterSample (workOf 0 2)).p % 4 = 0
    ∧ (workAfterSample (workOf 0 2)).p + 4 ≤ 2 ^ 32 := by decide

theorem witness_FullFrameIsSentFirst :
    (AtHead (running (.process (.loop (workOf 240 0)))) (runOf (.process (.loop (workOf 240 0)))) (workOf 240 0)
        (running (.process (.loop (workOf 240 0))))
      ∧ (running (.process (.loop (workOf 240 0)))).env.turn = .vadUnit
      ∧ (workOf 240 0).flen.toNat ≤ (workOf 240 0).off)
    ∧ (∃ w u, AtHead (lockedAt .vadUnit atAnswer) atAnswerRun w u ∧ w.flen.toNat ≤ w.off) :=
  ⟨⟨.verdict _ rfl, by decide⟩, ⟨_, _, .sample firstWork 0 rfl rfl (by decide), by decide⟩⟩

/-- A request that waits, a port that is idle, and a verdict to take, whatever its code. -/
theorem witness_VerdictIsCountedAndTheLoopGoesOn :
    (lockedAt .innerVad atVerdict).vad.ivadPort = .pending fullRequest
    ∧ (∀ r, (lockedAt .innerVad atStart).vad.ivadPort ≠ .pending r)
    ∧ (let s := running (.process (.ivadWait (workOf 240 0)))
      s.env.turn = .vadUnit ∧ s.vad.run = some (runOf (.process (.ivadWait (workOf 240 0))))
      ∧ ∀ code : BitVec 2,
        { s with vad := { s.vad with ivadPort := .answered code } }.vad.ivadPort = .answered code) :=
  ⟨rfl, (fun r h => by cases h), rfl, rfl, fun _ => rfl⟩

theorem witness_VadProcessCompletesWithItsFrames :
    ((lockedAt .vadUnit atEnd).Inv ∧ (lockedAt .vadUnit atEnd).env.turn = .vadUnit
      ∧ atEnd.run = some { rateA := 8000, addrA := 0x1000, blenA := 4, seq := .process (.loop endWork) }
      ∧ AtHead (lockedAt .vadUnit atEnd) { rateA := 8000, addrA := 0x1000, blenA := 4, seq := .process (.loop endWork) }
          endWork (lockedAt .vadUnit atEnd)
      ∧ endWork.off < endWork.flen.toNat ∧ endWork.rem = 0)
    ∧ ((lockedAt .vadUnit atEmpty).Inv
      ∧ ∃ w, AtHead (lockedAt .vadUnit atEmpty) { rateA := 8000, addrA := 0x1000, blenA := 3, seq := .process .start } w
            (lockedAt .vadUnit atEmpty)
          ∧ w.off < w.flen.toNat ∧ w.rem = 0) :=
  ⟨⟨atEnd_inv _, rfl, rfl, .verdict _ rfl, by decide, rfl⟩,
    ⟨atEmpty_inv _, _, .start 8000 240 rfl rfl, by decide, rfl⟩⟩

theorem witness_EmptyVadProcessLocksTheRate :
    (lockedAt .vadUnit atEmpty).Inv ∧ (lockedAt .vadUnit atEmpty).env.turn = .vadUnit
    ∧ atEmpty.run = some { rateA := 8000, addrA := 0x1000, blenA := 3, seq := .process .start }
    ∧ (3 : Word).toNat < 4 ∧ (rateCheck 8000 atEmpty).isSome = true :=
  ⟨atEmpty_inv _, rfl, rfl, by decide, by decide⟩

/-- The first read, and the second one, asked for in the step that takes the first word. -/
theorem witness_MemReadsWalkTheInputInOrder :
    ((lockedAt .vadUnit atSecond).Inv ∧ atSecond.run = some atSecondRun ∧ atSecond.memPort = .answered 0
      ∧ heldBy (fun t => t.vad.memPort) (exec .vadProcess (lockedAt .vadUnit atSecond)) = some (.pending 0x1004))
    ∧ (lockedAt .vadUnit atStart).Inv ∧ (lockedAt .vadUnit atStart).env.turn = .vadUnit
    ∧ atStart.run = some { rateA := 8000, addrA := 0x1000, blenA := 4, seq := .process .start }
    ∧ atStart.memPort = .idle
    ∧ heldBy (fun t => t.vad.memPort) (exec .vadProcess (lockedAt .vadUnit atStart)) = some (.pending 0x1000) :=
  ⟨⟨atSecond_inv _, rfl, rfl, rfl⟩, atStart_inv _, rfl, rfl, rfl, rfl⟩

theorem witness_FramesHoldTheQuantizedStream :
    (lockedAt .vadUnit atVerdict).Inv
    ∧ atVerdict.run = some { rateA := 8000, addrA := 0x1000, blenA := 4, seq := .process (.ivadWait fullWork) }
    ∧ atVerdict.ivadPort = .pending fullRequest
    ∧ 239 < fullWork.flen.toNat
    ∧ atVerdict.off.toNat ≤ countsTotal fullWork.hist * fullWork.flen.toNat + 239 :=
  ⟨atVerdict_inv _, rfl, rfl, by decide, by decide⟩

theorem witness_QuantRoundsTheExactProduct :
    ((0x7F800001 : Word).extractLsb' 23 8).toNat = 255 ∧ ((0x7F800001 : Word).extractLsb' 0 23).toNat ≠ 0
    ∧ ((0xFF800000 : Word).extractLsb' 23 8).toNat = 255 ∧ ((0xFF800000 : Word).extractLsb' 0 23).toNat = 0
    ∧ ((0x7F7FFFFF : Word).extractLsb' 23 8).toNat ≠ 255 := by decide

theorem witness_QuantProperties :
    f32IsNaN 0x7F800000 = false ∧ f32IsNaN 0x3F7FFCFF = false ∧ f32IsNaN 0x3F7FFD00 = false
    ∧ f32Scaled 0x3F7FFCFF ≤ f32Scaled 0x3F7FFD00 := by decide

theorem witness_DecisionIsTheExactMajority :
    let h : Counts := { e := 0, s := 1, v := 4, n := 0 }
    h.e = 0 ∧ 0 < h.s + h.v + h.n ∧ 0 < ({ e := 1, s := 0, v := 0, n := 0 } : Counts).e := by decide

theorem witness_DecoderCallsFeedOnceThenFlush :
    ∀ fmt : Fmt, ∀ len ∈ [(0 : Word), 1], ∀ b ∈ [bootStart, headOnce],
      (decoding fmt len (.call b)).env.turn = .mp3Unit
      ∧ (decoding fmt len (.call b)).mp3.run
          = some { inA := 0x40000, lenA := len, leftA := 0x50000, rightA := 0x60000, seq := .decode fmt (.call b) } := by
  intro fmt len _ b _; exact ⟨rfl, rfl⟩

theorem witness_BootstrapTransitionsFollowTheTable :
    0 < (1 : Word).toInt ∧ (0 : Word).toInt = 0 ∧ (0xFFFFFFFF : Word).toInt < 0 ∧ Bst.frame ≠ .done := by decide

/-- The MP3 unit waiting with an answer on its port. -/
def answered (fmt : Fmt) (len : Word) (b : Boot) (n : Word) (hp : Bool) : State :=
  { decoding fmt len (.wait b) with
    mp3 := { (decoding fmt len (.wait b)).mp3 with idecPort := .answered (n, hp) } }

theorem witness_DecoderAnswerMovesTheBootstrap (fmt : Fmt) (len n : Word) (b : Boot) (hp : Bool) :
    (answered fmt len b n hp).env.turn = .mp3Unit
    ∧ (answered fmt len b n hp).mp3.run
        = some { inA := 0x40000, lenA := len, leftA := 0x50000, rightA := 0x60000, seq := .decode fmt (.wait b) }
    ∧ (answered fmt len b n hp).mp3.idecPort = .answered (n, hp) := ⟨rfl, rfl, rfl⟩

theorem witness_DecodeCompletesWithItsResults (fmt : Fmt) (len n : Word) (b : Boot) :
    (decoding fmt len (.finish b n)).env.turn = .mp3Unit
    ∧ (decoding fmt len (.finish b n)).mp3.run
        = some { inA := 0x40000, lenA := len, leftA := 0x50000, rightA := 0x60000,
                 seq := .decode fmt (.finish b n) } := ⟨rfl, rfl⟩

/-- Both paths: three calls with input, one call without. -/
theorem witness_DecodeEndsInOneOfThreeOutcomes :
    (decoding .s16 1 (.finish { bst := .done, ncalls := 3, hp1 := false, hp2 := true, hp3 := true } 0)).Inv
    ∧ (decoding .s16 0 (.finish { bst := .init, ncalls := 1, hp1 := true, hp2 := false, hp3 := false } 0)).Inv
    ∧ heldBy (fun t => t.mp3.done) (exec (decodeInstr .s16)
        (decoding .s16 1 (.finish { bst := .done, ncalls := 3, hp1 := false, hp2 := true, hp3 := true } 0)))
      = some true :=
  ⟨decoding_inv _ _ (by decide) ⟨⟨fun h => absurd h (by decide), fun _ => by decide⟩, rfl⟩,
    decoding_inv _ _ (by decide) ⟨⟨fun _ => by decide, fun h => absurd rfl h⟩, rfl⟩, rfl⟩

theorem witness_Mp3ResetRunsToItsEnd : (rested .host).env.turn = .host ∧ (rested .host).mp3.run = none := by decide

/-- A host's turn and a unit's turn of each command family. -/
theorem witness_VadCommandsChangeOnlyTheirUnit :
    Instr.unit .vadProcess = .vad ∧ (heldBy (fun t => t.vad.run.isSome) (exec .vadProcess (rested .host))) = some true
    ∧ Instr.unit .vadInit = .vad
    ∧ (heldBy (fun t => t.vad.run.isSome) (exec .vadInit (running (.init true)))) = some false := by decide

theorem witness_Mp3CommandsChangeOnlyTheirUnit :
    Instr.unit .mp3Reset = .mp3 ∧ (heldBy (fun t => t.mp3.run.isSome) (exec .mp3Reset (rested .host))) = some true
    ∧ Instr.unit .mp3DecodeS16 = .mp3
    ∧ (heldBy (fun t => t.mp3.run.isSome) (exec .mp3DecodeS16 (decoding .s16 1 (.call bootStart)))) = some true := by
  decide

/-- Steps that do not end their command, at a unit's turn and at the host's. -/
theorem witness_RegistersChangeOnlyAtComplete :
    (heldBy (fun t => t.vad.run.isSome) (exec .vadInit (running (.init false)))) = some true
    ∧ (running (.init false)).env.turn ≠ .host
    ∧ (heldBy (fun t => t.mp3.run.isSome) (exec .mp3DecodeF32 (decoding .f32 1 (.call bootStart)))) = some true
    ∧ (decoding .f32 1 (.call bootStart)).env.turn ≠ .host
    ∧ (heldBy (fun t => t.vad.done) (exec .vadInit (rested .host))) = some false := by decide

theorem witness_RunningCommandIgnoresTheArgumentRegisters :
    Instr.unit .vadProcess = .vad ∧ (running (.process .start)).env.turn = .vadUnit
    ∧ Instr.unit .mp3DecodeF32 = .mp3 ∧ (decoding .f32 0 (.call bootStart)).env.turn = .mp3Unit := by decide

/-- Two states that agree on one unit only. -/
theorem witness_UnitsShareNothing :
    (rested .host).vad = { rested .host with mp3 := { State.reset.mp3 with n := 1 }, mem := [(0, 1)] }.vad
    ∧ (rested .host).mp3 ≠ { rested .host with mp3 := { State.reset.mp3 with n := 1 }, mem := [(0, 1)] }.mp3
    ∧ (heldBy (fun t => t.vad.run.isSome) (exec .vadInit (rested .host))) = some true
    ∧ (rested .host).mp3 = { rested .host with vad := atInit, irqEnable := 3 }.mp3
    ∧ (heldBy (fun t => t.mp3.run.isSome) (exec .mp3Reset (rested .host))) = some true := by decide

/-- Registers at both ends of their blocks, and the first and last word of RB_WIN. -/
theorem witness_ListedAccessesReachTheirRegisters :
    vadBusy (rested .host).vad = false ∧ (719 : Nat) < 720
    ∧ (∀ e ∈ [(Reg.vadCmd, (0x000 : BitVec 13)), (.vadHistNoi, 0x034), (.mp3Cmd, 0x040), (.irqStatus, 0x07C),
        (.rbWin 0, 0x800), (.rbWin 719, 0x133C)], e.1.wellFormed = true ∧ e.1.offset = e.2.toNat) := by decide

/-- Each ground at a boundary: a narrower and a wider access, an odd half-word offset, the hole at 0x038 and the end of
RB_WIN. -/
theorem witness_UndefinedAccessesReadZeroAndWriteNothing :
    (Width.w8 ≠ .w32 ∧ Width.w64 ≠ .w32) ∧ (0x016 : BitVec 13).toNat % 4 ≠ 0
    ∧ (∀ r : Reg, r.wellFormed = true → r.offset ≠ (0x038 : BitVec 13).toNat)
    ∧ (∀ r : Reg, r.wellFormed = true → r.offset ≠ (0x1340 : BitVec 13).toNat) := by
  refine ⟨by decide, by decide, fun r h => ?_, fun r h => ?_⟩ <;> cases r <;>
    first | decide | (simp [Reg.wellFormed] at h; simp [Reg.offset]; omega)

theorem witness_RingWindowShowsTwoElements :
    (0 : Nat) < 720 ∧ (719 : Nat) < 720 ∧ vadBusy (rested .host).vad = false := by decide

theorem witness_MemReadAnswersTheLittleEndianWord :
    (lockedAt .hostMemory atRead).vad.memPort = .pending 0x1000
    ∧ (∀ k ∈ [0, 1, 2, 3], readByte (lockedAt .hostMemory atRead).mem ((0x1000 : Word).toNat + k) = some 0)
    ∧ unfixedBits (lockedAt .hostMemory atRead) (0x1000 : Word).toNat = 0 := by decide

theorem witness_RacedBitsAloneAreFree :
    (lockedAt .hostMemory atRead).vad.memPort = .pending 0x1000
    ∧ wordAt (lockedAt .hostMemory atRead).mem (0x1000 : Word).toNat = some 0
    ∧ vadBusy (lockedAt .host atRead).vad = true
    ∧ inRunningOutput (lockedAt .host atRead).mp3 (0x1000 : Word).toNat = false
    ∧ readByte (lockedAt .host atRead).mem (0x1000 : Word).toNat = some 0 := by decide

theorem witness_HostStoreChangesOneByte :
    inRunningOutput (decoding .s16 1 (.call bootStart)).mp3 (0x508FF : Word).toNat = true
    ∧ inRunningOutput (decoding .s16 1 (.call bootStart)).mp3 (0x50900 : Word).toNat = false := by decide

theorem witness_InnerDecoderWritesOnlyItsOutputs :
    let r : IdecReq := { fmt := .s16, inPtr := 0, inLen := 0, left := 0x50000, right := 0x60000 }
    { rested .innerDecoder with mp3 := { State.reset.mp3 with idecPort := .pending r } }.mp3.idecPort = .pending r
    ∧ ¬(r.left.toNat ≤ 0x50900 ∧ 0x50900 < r.left.toNat + 1152 * 2)
    ∧ ¬(r.right.toNat ≤ 0x50900 ∧ 0x50900 < r.right.toNat + 1152 * 2) := by decide

theorem witness_HardwareResetAbandonsEverything :
    (coming .host .assertRst (bothRunning .host)).env.hostOps = .assertRst :: []
    ∧ (coming .host .assertRst (bothRunning .host)).env.turn = .host
    ∧ Reg.wellFormed .irqStatus = true ∧ (∀ k, Reg.irqStatus ≠ .rbWin k) :=
  ⟨rfl, rfl, rfl, fun k h => by cases h⟩

theorem witness_ResetStateReadsZero : Reg.wellFormed .vadStatus = true ∧ ∀ k, Reg.vadStatus ≠ .rbWin k :=
  ⟨rfl, fun k h => by cases h⟩

theorem witness_EveryStepKeepsTheInvariant :
    (coming .hostMemory .assertRst (lockedAt .host atRead)).Inv
    ∧ heldBy (fun t => t.vad.memPort) (step (coming .hostMemory .assertRst (lockedAt .host atRead)))
      = some (.answered 0) :=
  ⟨⟨(atRead_inv .host).mem, (atRead_inv .host).race, (atRead_inv .host).stale, (atRead_inv .host).vad,
    (atRead_inv .host).mp3⟩, rfl⟩

theorem witness_NoStepStops : (lockedAt .vadUnit atStart).Inv := atStart_inv _

/-! A run, for the statements about runs: a machine whose host does nothing more and whose VAD unit reads nothing
more goes on for ever. -/

/-- The host has no more transactions, and the VAD unit's command, if any, no more samples to read. -/
def Quiet (s : State) : Prop :=
  s.env.hostOps = [] ∧ s.vad.memPort = .idle
  ∧ ∀ run, s.vad.run = some run →
    ∃ w, (run.seq = .process (.loop w) ∨ run.seq = .process (.ivadWait w)) ∧ w.rem = 0

theorem quiet_of_vad {s t : State} (h : Quiet s) (hv : t.vad = s.vad) (he : t.env.hostOps = s.env.hostOps) :
    Quiet t := by unfold Quiet; rw [hv, he]; exact h

theorem quiet_vadMove {s : State} (h : Quiet s) (ht : s.env.turn = .vadUnit) :
    ∃ t, vadMove s = .next t ∧ Quiet t := by
  unfold vadMove
  cases hr : s.vad.run with
  | none => exact ⟨s, rfl, h⟩
  | some run =>
    obtain ⟨w, hq | hq, hw⟩ := h.2.2 run hr
    · simp only [vadCommand, hq, exec, execVadProcess, ht, runVadProcess, hr, iterate, hw, if_true]
      split
      · refine ⟨_, rfl, h.1, h.2.1, fun run' hr' => ⟨w, .inr ?_, hw⟩⟩
        simp only [vadGoto, postIvad, hr, Option.map_some, Option.some.injEq] at hr'
        rw [← hr']
      · exact ⟨_, rfl, h.1, h.2.1, fun run' hr' => by cases hr'⟩
    · simp only [vadCommand, hq, exec, execVadProcess, ht, runVadProcess, hr]
      split
      · next code _ =>
        refine ⟨_, rfl, h.1, h.2.1, fun run' hr' => ⟨workAfterVerdict w code, .inl ?_, hw⟩⟩
        simp only [takeVerdict, vadGoto, hr, Option.map_some, Option.some.injEq] at hr'
        rw [← hr']
      · exact ⟨s, rfl, h⟩
      · exact ⟨s, rfl, h⟩

theorem quiet_mp3Move {s : State} (h : Quiet s) : ∃ t, mp3Move s = .next t ∧ Quiet t := by
  have hd : ∀ fmt, (runDecode fmt s).vad = s.vad := by
    intro fmt
    rcases runDecode_cases (s := s) (fmt := fmt) rfl with e | ⟨r, -, ⟨b, -, e⟩ | ⟨b, n, hp, -, -, e⟩ | ⟨b, n, -, e⟩⟩
      <;> rw [e] <;> rfl
  have hi : ∀ q c, (issueMp3 q c s).vad = s.vad := by
    intro q c
    rcases issueMp3_cases (s := s) (seq := q) (check := c) rfl with ⟨-, e⟩ | ⟨-, c, -, e⟩ | ⟨-, -, e⟩
      <;> rw [e] <;> rfl
  have hm : (runMp3Reset s).vad = s.vad := by
    rcases runMp3Reset_cases (s := s) rfl with ⟨r, -, -, e⟩ | ⟨r, -, -, e⟩ | e <;> rw [e] <;> rfl
  have key : ∀ i : Instr, i.unit = .mp3 → ∃ t, exec i s = .next t ∧ t.vad = s.vad := by
    intro i hu
    cases i <;> first
      | (cases hu; done)
      | (simp only [exec, execMp3DecodeS16]; split <;> first | exact ⟨_, rfl, hi _ _⟩ | exact ⟨_, rfl, hd _⟩ | exact ⟨_, rfl, rfl⟩)
      | (simp only [exec, execMp3DecodeF32]; split <;> first | exact ⟨_, rfl, hi _ _⟩ | exact ⟨_, rfl, hd _⟩ | exact ⟨_, rfl, rfl⟩)
      | (simp only [exec, execMp3Reset]; split <;> first | exact ⟨_, rfl, hi _ _⟩ | exact ⟨_, rfl, hm⟩ | exact ⟨_, rfl, rfl⟩)
  unfold mp3Move
  split
  · exact ⟨s, rfl, h⟩
  · next r _ =>
    obtain ⟨t, he, hv⟩ := key (mp3Command r) (by unfold mp3Command; split <;> rfl)
    exact ⟨t, he, quiet_of_vad h hv (by rw [exec_env he])⟩

theorem quiet_step {s : State} (h0 : Quiet s) : ∃ t, step s = .next t ∧ Quiet t := by
  have h : Quiet (takeTurn s) := quiet_of_vad h0 (by simp) (by simp)
  unfold step
  generalize takeTurn s = s at h
  unfold agentMove
  split
  · unfold hostMove; rw [h.1]; exact ⟨_, rfl, h⟩
  · next ht => exact quiet_vadMove h ht
  · exact quiet_mp3Move h
  · refine ⟨_, rfl, ?_⟩
    unfold memoryMove; rw [h.2.1]; exact h
  · refine ⟨_, rfl, ?_⟩
    rcases innerVadMove_cases s with e | ⟨r, code, -, e⟩ <;> rw [e]
    · exact h
    · exact ⟨h.1, h.2.1, h.2.2⟩
  · refine ⟨_, rfl, ?_⟩
    rcases innerDecoderMove_cases s with e | ⟨r, n, hp, ws, -, e⟩ <;> rw [e]
    · exact h
    · exact quiet_of_vad h (by simp [(writeOutputs_rest r.fmt r.left r.right ws s).1]) rfl

/-- The run from a state. -/
def runFrom (s : State) : Nat → State
  | 0 => s
  | n + 1 => match step (runFrom s n) with
    | .next t => t
    | _ => runFrom s n

theorem runFrom_isRun {s : State} (h : Quiet s) : IsRun (runFrom s) := by
  have hq : ∀ n, Quiet (runFrom s n) := by
    intro n
    induction n with
    | zero => exact h
    | succ n ih => obtain ⟨t, ht, hq⟩ := quiet_step ih; simp only [runFrom, ht]; exact hq
  intro n
  obtain ⟨t, ht, -⟩ := quiet_step (hq n)
  simp only [runFrom, ht]

/-- Runs of a busy unit that waits for a verdict, and of one that waits for nothing. -/
theorem witness_VadCommandComesToItsEnd_run :
    (IsRun (runFrom (lockedAt .host atVerdict)) ∧ (runFrom (lockedAt .host atVerdict) 0).Inv
      ∧ vadBusy (runFrom (lockedAt .host atVerdict) 0).vad = true
      ∧ vadWaits (runFrom (lockedAt .host atVerdict) 0).vad)
    ∧ (IsRun (runFrom (lockedAt .host atEnd)) ∧ (runFrom (lockedAt .host atEnd) 0).Inv
      ∧ vadBusy (runFrom (lockedAt .host atEnd) 0).vad = true) :=
  ⟨⟨runFrom_isRun ⟨rfl, rfl, fun _ h => ⟨fullWork, .inr (by cases h; rfl), rfl⟩⟩, atVerdict_inv _, rfl,
      .inr ⟨_, rfl⟩⟩,
    ⟨runFrom_isRun ⟨rfl, rfl, fun _ h => ⟨endWork, .inl (by cases h; rfl), rfl⟩⟩, atEnd_inv _, rfl⟩⟩

/-- A run of a decode from its first call. -/
theorem witness_Mp3CommandComesToItsEnd_run :
    IsRun (runFrom (decoding .s16 4096 (.call bootStart))) ∧ (runFrom (decoding .s16 4096 (.call bootStart)) 0).Inv
    ∧ mp3Busy (runFrom (decoding .s16 4096 (.call bootStart)) 0).mp3 = true :=
  ⟨runFrom_isRun ⟨rfl, rfl, fun _ h => by cases h⟩, decoding_inv _ _ (by decide) ⟨.inl rfl, rfl⟩, rfl⟩

/-- Each mover: the unit itself, host memory with a readable word, the inner VAD. -/
theorem witness_VadCommandComesToItsEnd :
    ((lockedAt .vadUnit atStart).Inv ∧ vadBusy atStart = true ∧ vadMover atStart = .vadUnit
      ∧ ∀ a, atStart.memPort = .pending a → (memRead a (lockedAt .vadUnit atStart)).isSome = true)
    ∧ ((lockedAt .hostMemory atRead).Inv ∧ vadBusy atRead = true ∧ vadMover atRead = .hostMemory
      ∧ ∀ a, atRead.memPort = .pending a → (memRead a (lockedAt .hostMemory atRead)).isSome = true)
    ∧ ((lockedAt .innerVad atVerdict).Inv ∧ vadBusy atVerdict = true ∧ vadMover atVerdict = .innerVad
      ∧ ∀ a, atVerdict.memPort = .pending a → (memRead a (lockedAt .innerVad atVerdict)).isSome = true) :=
  ⟨⟨atStart_inv _, rfl, rfl, fun a h => by cases h⟩,
    ⟨atRead_inv _, rfl, rfl, fun a h => by cases h; rfl⟩,
    ⟨atVerdict_inv _, rfl, rfl, fun a h => by cases h⟩⟩

theorem witness_Mp3CommandComesToItsEnd :
    (decoding .s16 4096 (.call bootStart)).Inv ∧ mp3Busy (decoding .s16 4096 (.call bootStart)).mp3 = true
    ∧ (decoding .s16 4096 (.call bootStart)).env.turn = mp3Mover (decoding .s16 4096 (.call bootStart)).mp3 :=
  ⟨decoding_inv _ _ (by decide) ⟨.inl rfl, rfl⟩, rfl, rfl⟩

/-- Both ways a rate is unlocked. -/
theorem witness_OnlyInitAndResetUnlockTheRate :
    ((coming .host .assertRst (lockedAt .host atStart)).Inv
      ∧ heldBy (fun t => t.vad.rate) (step (coming .host .assertRst (lockedAt .host atStart))) = some 0)
    ∧ ((coming .vadUnit .assertRst (lockedAt .host atInit)).Inv
      ∧ heldBy (fun t => t.vad.rate) (step (coming .vadUnit .assertRst (lockedAt .host atInit))) = some 0)
    ∧ atStart.rate ≠ 0 ∧ atInit.rate ≠ 0 :=
  ⟨⟨⟨(atStart_inv .host).mem, (atStart_inv .host).race, (atStart_inv .host).stale, (atStart_inv .host).vad,
      (atStart_inv .host).mp3⟩, rfl⟩,
    ⟨⟨(atInit_inv .host).mem, (atInit_inv .host).race, (atInit_inv .host).stale, (atInit_inv .host).vad,
      (atInit_inv .host).mp3⟩, rfl⟩, by decide, by decide⟩

/-- Each unit's `complete` from DONE 0, and a reset while BUSY. -/
theorem witness_OnlyCompleteSetsDone :
    ((coming .vadUnit .assertRst (bothRunning .host)).vad.done = false
      ∧ heldBy (fun t => t.vad.done) (step (coming .vadUnit .assertRst (bothRunning .host))) = some true)
    ∧ ((coming .mp3Unit .assertRst (decoding .s16 1 (.finish headOnce 0))).mp3.done = false
      ∧ heldBy (fun t => t.mp3.done) (step (coming .mp3Unit .assertRst (decoding .s16 1 (.finish headOnce 0))))
        = some true)
    ∧ (vadBusy (bothRunning .host).vad = true
      ∧ heldBy (fun t => vadBusy t.vad) (step (coming .host .assertRst (bothRunning .host))) = some false)
    ∧ (mp3Busy (bothRunning .host).mp3 = true
      ∧ heldBy (fun t => mp3Busy t.mp3) (step (coming .host .assertRst (bothRunning .host))) = some false) :=
  ⟨⟨rfl, rfl⟩, ⟨rfl, rfl⟩, ⟨rfl, rfl⟩, ⟨rfl, rfl⟩⟩

end Sys2Proof.Tests
end

section
/-! SUPPORT. What a step can do, said once: one inductive relation for the commands of each unit, one for a write to the
window, one for the host's transaction, and the step of any agent by whose turn it is. Later proofs split along their
constructors. -/

namespace Sys2Proof.Machine

/-- What a step of a VAD command can do, with what was so before it: at the host's turn the acceptance procedure
(30_encoding.md R72), at the unit's turn the command's next step (60_exceptions.md R141). -/
inductive VadExec (s : State) : State → Prop where
  | nothing : VadExec s s
  | overruns (turn : s.env.turn = .host) (busy : s.vad.run.isSome = true) : VadExec s (overrun .vad s)
  | rejects (cause : Cause) (turn : s.env.turn = .host) (idle : s.vad.run = none) :
    VadExec s (reject .vad cause s)
  | accepts (seq : VadSeq) (turn : s.env.turn = .host) (idle : s.vad.run = none)
    (fresh : seq = .init false ∨ seq = .setmode
      ∨ seq = .process .start ∧ checkProcessArgs s.vad.arg1 s.vad.arg2 = none) :
    VadExec s (acceptVad seq s)
  | initPulse (run : VadRun) (turn : s.env.turn = .vadUnit) (running : s.vad.run = some run)
    (seq : run.seq = .init false) : VadExec s (vadGoto (.init true) (pulseIvad s))
  | initEnd (run : VadRun) (turn : s.env.turn = .vadUnit) (running : s.vad.run = some run)
    (seq : run.seq = .init true) : VadExec s (completeVad initCommit s)
  | setmodeEnd (run : VadRun) (turn : s.env.turn = .vadUnit) (running : s.vad.run = some run)
    (seq : run.seq = .setmode) : VadExec s (completeVad (setmodeCommit run.rateA) s)
  | rateFail (run : VadRun) (turn : s.env.turn = .vadUnit) (running : s.vad.run = some run)
    (seq : run.seq = .process .start) (failed : rateCheck run.rateA s.vad = none) :
    VadExec s (completeVad rateFailCommit s)
  | pass (run : VadRun) (w : ProcWork) (s' t : State) (turn : s.env.turn = .vadUnit)
    (running : s.vad.run = some run) (head : AtHead s run w s') (next : iterate w s' = .next t) : VadExec s t
  | verdict (run : VadRun) (w : ProcWork) (code : BitVec 2) (turn : s.env.turn = .vadUnit)
    (running : s.vad.run = some run) (seq : run.seq = .process (.ivadWait w))
    (answered : s.vad.ivadPort = .answered code) : VadExec s (takeVerdict w code s)

/-- What a step of an MP3 command can do, with what was so before it. -/
inductive Mp3Exec (s : State) : State → Prop where
  | nothing : Mp3Exec s s
  | overruns (turn : s.env.turn = .host) (busy : s.mp3.run.isSome = true) : Mp3Exec s (overrun .mp3 s)
  | rejects (cause : Cause) (turn : s.env.turn = .host) (idle : s.mp3.run = none) :
    Mp3Exec s (reject .mp3 cause s)
  | accepts (seq : Mp3Seq) (turn : s.env.turn = .host) (idle : s.mp3.run = none)
    (fresh : seq = .reset false ∨ ∃ fmt, seq = .decode fmt (.call bootStart)
      ∧ checkDecodeArgs fmt s.mp3.arg0 s.mp3.arg1 s.mp3.arg2 s.mp3.arg3 = none) :
    Mp3Exec s (acceptMp3 seq s)
  | call (run : Mp3Run) (fmt : Fmt) (b : Boot) (turn : s.env.turn = .mp3Unit) (running : s.mp3.run = some run)
    (seq : run.seq = .decode fmt (.call b)) :
    Mp3Exec s (mp3Goto (.decode fmt (.wait b)) (postIdec (decodeRequest fmt run b) s))
  | answer (run : Mp3Run) (fmt : Fmt) (b : Boot) (n : Word) (hp : Bool) (turn : s.env.turn = .mp3Unit)
    (running : s.mp3.run = some run) (seq : run.seq = .decode fmt (.wait b))
    (answered : s.mp3.idecPort = .answered (n, hp)) : Mp3Exec s (takeAnswer fmt run b n hp s)
  | finish (run : Mp3Run) (fmt : Fmt) (b : Boot) (n : Word) (turn : s.env.turn = .mp3Unit)
    (running : s.mp3.run = some run) (seq : run.seq = .decode fmt (.finish b n)) :
    Mp3Exec s (completeMp3 (decodeCommit run b n) s)
  | resetPulse (run : Mp3Run) (turn : s.env.turn = .mp3Unit) (running : s.mp3.run = some run)
    (seq : run.seq = .reset false) : Mp3Exec s (mp3Goto (.reset true) (pulseIdec s))
  | resetEnd (run : Mp3Run) (turn : s.env.turn = .mp3Unit) (running : s.mp3.run = some run)
    (seq : run.seq = .reset true) : Mp3Exec s (completeMp3 resetCommit s)

/-- A step of VAD_PROCESS at its unit's turn is one of those of `VadExec`. -/
theorem vadExec_of_runVadProcess {s t : State} (turn : s.env.turn = .vadUnit) (h : runVadProcess s = .next t) :
    VadExec s t := by
  rcases runVadProcess_cases h with rfl | ⟨run, running, ⟨seq, failed, rfl⟩ | ⟨rate, flen, seq, checked, next⟩ |
    ⟨w, seq, next⟩ | ⟨w, word, seq, answered, taken⟩ | ⟨w, code, seq, answered, rfl⟩⟩
  · exact .nothing
  · exact .rateFail run turn running seq failed
  · exact .pass run _ s t turn running (.start rate flen seq checked) next
  · exact .pass run w s t turn running (.verdict w seq) next
  · obtain ⟨inside, next⟩ := takeSample_cases taken
    exact .pass run _ _ t turn running (.sample w word seq answered inside) next
  · exact .verdict run w code turn running seq answered

/-- Every step of a VAD command is one of those of `VadExec`. -/
theorem vadExec_of_exec {i : Instr} {s t : State} (hi : i.unit = .vad) (h : exec i s = .next t) : VadExec s t := by
  rcases exec_vad_cases hi h with ⟨turn, seq, check, issue, hs⟩ | ⟨turn, -, h⟩ | ⟨turn, -, h⟩ | ⟨turn, -, h⟩ | rfl
  · rcases issueVad_cases issue with ⟨busy, rfl⟩ | ⟨idle, cause, -, rfl⟩ | ⟨idle, hc, rfl⟩
    · exact .overruns turn busy
    · exact .rejects cause turn idle
    · refine .accepts seq turn idle ?_
      rcases hs with ⟨rfl, -⟩ | ⟨rfl, -⟩ | ⟨rfl, rfl⟩
      · exact .inl rfl
      · exact .inr (.inl rfl)
      · exact .inr (.inr ⟨rfl, hc⟩)
  · rcases runVadInit_cases h with ⟨run, running, seq, rfl⟩ | ⟨run, running, seq, rfl⟩ | rfl
    · exact .initPulse run turn running seq
    · exact .initEnd run turn running seq
    · exact .nothing
  · rcases runVadSetmode_cases h with ⟨run, running, seq, rfl⟩ | rfl
    · exact .setmodeEnd run turn running seq
    · exact .nothing
  · exact vadExec_of_runVadProcess turn h
  · exact .nothing

/-- A step of an MP3_DECODE_* at its unit's turn is one of those of `Mp3Exec`. -/
theorem mp3Exec_of_runDecode {fmt : Fmt} {s t : State} (turn : s.env.turn = .mp3Unit) (h : t = runDecode fmt s) :
    Mp3Exec s t := by
  rcases runDecode_cases h with rfl | ⟨run, running, ⟨b, seq, rfl⟩ | ⟨b, n, hp, seq, answered, rfl⟩ |
    ⟨b, n, seq, rfl⟩⟩
  · exact .nothing
  · exact .call run fmt b turn running seq
  · exact .answer run fmt b n hp turn running seq answered
  · exact .finish run fmt b n turn running seq

/-- Every step of an MP3 command is one of those of `Mp3Exec`. -/
theorem mp3Exec_of_exec {i : Instr} {s t : State} (hi : i.unit = .mp3) (h : exec i s = .next t) : Mp3Exec s t := by
  rcases exec_mp3_cases hi h with ⟨turn, ⟨fmt, issue⟩ | issue⟩ | ⟨turn, -, h⟩ | ⟨turn, -, h⟩ | ⟨turn, -, h⟩ | rfl
  · rcases issueMp3_cases issue with ⟨busy, rfl⟩ | ⟨idle, cause, -, rfl⟩ | ⟨idle, hc, rfl⟩
    · exact .overruns turn busy
    · exact .rejects cause turn idle
    · exact .accepts _ turn idle (.inr ⟨fmt, rfl, hc⟩)
  · rcases issueMp3_cases issue with ⟨busy, rfl⟩ | ⟨idle, cause, -, rfl⟩ | ⟨idle, -, rfl⟩
    · exact .overruns turn busy
    · exact .rejects cause turn idle
    · exact .accepts _ turn idle (.inl rfl)
  · exact mp3Exec_of_runDecode turn h
  · exact mp3Exec_of_runDecode turn h
  · rcases runMp3Reset_cases h with ⟨run, running, seq, rfl⟩ | ⟨run, running, seq, rfl⟩ | rfl
    · exact .resetPulse run turn running seq
    · exact .resetEnd run turn running seq
    · exact .nothing
  · exact .nothing

/-! ### What the commands of one unit leave of the rest -/

/-- A step comes to the loop head with everything but the ring, the memory port and the read record as it was. -/
theorem atHead_state {s s' : State} {run : VadRun} {w : ProcWork} (h : AtHead s run w s') :
    ∃ rb port log, s' = { s with vad := { s.vad with rb := rb, memPort := port, memLog := log } } := by
  cases h with
  | start => exact ⟨_, _, _, rfl⟩
  | verdict => exact ⟨_, _, _, rfl⟩
  | sample => exact ⟨_, _, _, rfl⟩

/-- A pass of the loop touches the VAD unit only. -/
theorem iterate_rest {w : ProcWork} {s t : State} (h : iterate w s = .next t) :
    t.mp3 = s.mp3 ∧ t.irqEnable = s.irqEnable ∧ t.mem = s.mem ∧ t.race = s.race ∧ t.stale = s.stale := by
  rcases iterate_cases h with ⟨-, rfl⟩ | ⟨-, -, rfl⟩ | ⟨-, -, -, -, rfl⟩ <;> exact ⟨rfl, rfl, rfl, rfl, rfl⟩

/-- A step of a VAD command touches the VAD unit only, but for the race mask, which acceptance empties. -/
theorem VadExec.rest {s t : State} (h : VadExec s t) :
    t.mp3 = s.mp3 ∧ t.irqEnable = s.irqEnable ∧ t.mem = s.mem ∧ (t.race = s.race ∨ t.race = [])
      ∧ t.stale = s.stale := by
  cases h with
  | accepts => exact ⟨rfl, rfl, rfl, .inr rfl, rfl⟩
  | pass run w s' t turn running head next =>
    obtain ⟨rb, port, log, rfl⟩ := atHead_state head
    obtain ⟨hmp3, hirq, hmem, hrace, hstale⟩ := iterate_rest next
    exact ⟨hmp3, hirq, hmem, .inl hrace, hstale⟩
  | nothing | overruns | rejects | initPulse | initEnd | setmodeEnd | rateFail | verdict =>
    exact ⟨rfl, rfl, rfl, .inl rfl, rfl⟩

/-- A step of an MP3 command touches the MP3 unit only. -/
theorem Mp3Exec.rest {s t : State} (h : Mp3Exec s t) :
    t.vad = s.vad ∧ t.irqEnable = s.irqEnable ∧ t.mem = s.mem ∧ t.race = s.race ∧ t.stale = s.stale := by
  cases h <;> exact ⟨rfl, rfl, rfl, rfl, rfl⟩

/-! ### The host -/

/-- What a write to the window can do: nothing; a step of a command; an overrun or a rejection; a write of a status
register, of argument registers or of IRQ_ENABLE. -/
inductive WindowEffect (s : State) : State → Prop where
  | nothing : WindowEffect s s
  | command (i : Instr) (t : State) (run : exec i s = .next t) : WindowEffect s t
  | overruns (u : UnitId) : WindowEffect s (overrun u s)
  | rejects (u : UnitId) (cause : Cause) : WindowEffect s (reject u cause s)
  | vadStatus (w : Word) : WindowEffect s { s with vad := vadStatusWrite w s.vad }
  | mp3Status (w : Word) : WindowEffect s { s with mp3 := mp3StatusWrite w s.mp3 }
  | vadArgs (a0 a1 a2 : Word) : WindowEffect s (withVadArgs a0 a1 a2 s)
  | mp3Args (a0 a1 a2 a3 : Word) : WindowEffect s (withMp3Args a0 a1 a2 a3 s)
  | irqEnable (e : BitVec 2) : WindowEffect s { s with irqEnable := e }

theorem commandWrite_effect {u : UnitId} {w : Word} {s t : State} (h : commandWrite u w s = .next t) :
    WindowEffect s t := by
  rcases commandWrite_cases u w s with ⟨i, -, -, e⟩ | ⟨cause, -, e⟩ <;> rw [e] at h
  · exact .command i t h
  · rw [next_inj.1 h]
    split
    · exact .overruns u
    · exact .rejects u cause

theorem regWrite_effect {r : Reg} {w : Word} {s t : State} (h : regWrite r w s = .next t) : WindowEffect s t := by
  cases r with
  | vadCmd => exact commandWrite_effect h
  | mp3Cmd => exact commandWrite_effect h
  | vadStatus => rw [next_inj.1 h]; exact .vadStatus w
  | mp3Status => rw [next_inj.1 h]; exact .mp3Status w
  | vadArg0 => rw [next_inj.1 h]; exact .vadArgs w s.vad.arg1 s.vad.arg2
  | vadArg1 => rw [next_inj.1 h]; exact .vadArgs s.vad.arg0 w s.vad.arg2
  | vadArg2 => rw [next_inj.1 h]; exact .vadArgs s.vad.arg0 s.vad.arg1 w
  | mp3Arg0 => rw [next_inj.1 h]; exact .mp3Args w s.mp3.arg1 s.mp3.arg2 s.mp3.arg3
  | mp3Arg1 => rw [next_inj.1 h]; exact .mp3Args s.mp3.arg0 w s.mp3.arg2 s.mp3.arg3
  | mp3Arg2 => rw [next_inj.1 h]; exact .mp3Args s.mp3.arg0 s.mp3.arg1 w s.mp3.arg3
  | mp3Arg3 => rw [next_inj.1 h]; exact .mp3Args s.mp3.arg0 s.mp3.arg1 s.mp3.arg2 w
  | irqEnable => rw [next_inj.1 h]; exact .irqEnable _
  | vadResult | vadRate | vadFlen | vadOff | vadMode | vadHistErr | vadHistSil | vadHistVoi | vadHistNoi
  | mp3N | mp3Samples | mp3Trace | irqStatus | rbWin => rw [next_inj.1 h]; exact .nothing

theorem windowWrite_effect {offset : BitVec 13} {width : Width} {w : Word} {s t : State}
    (h : windowWrite offset width w s = .next t) : WindowEffect s t := by
  unfold windowWrite at h
  split at h
  · split at h
    · exact regWrite_effect h
    · rw [next_inj.1 h]; exact .nothing
  · rw [next_inj.1 h]; exact .nothing

/-- What the host's step can do: a write to the window; the reset, where that is its transaction; or something that
leaves both units as they are and keeps the canonical form of memory (reads, polls, stores, cleaning). -/
inductive HostEffect (s : State) : State → Prop where
  | window (t : State) (effect : WindowEffect (popHostOp s) t) : HostEffect s t
  | outside (t : State) (vad : t.vad = s.vad) (mp3 : t.mp3 = s.mp3) (wf : MemWf s → MemWf t) : HostEffect s t
  | reset (op : s.env.hostOps.head? = some .assertRst) : HostEffect s (hardReset (popHostOp s))

theorem popHostOp_wf {s : State} (h : MemWf s) : MemWf (popHostOp s) := ⟨h.mem, h.race, h.stale⟩

theorem hostPoll_effect (offset : BitVec 13) (passed : Word → Bool) (s : State) :
    HostEffect s (hostPoll offset passed s) := by
  unfold hostPoll
  split
  · exact .outside _ rfl rfl fun h => ⟨h.mem, h.race, h.stale⟩
  · exact .outside _ rfl rfl fun h => ⟨h.mem, h.race, h.stale⟩

theorem hostMove_effect {s t : State} (h : hostMove s = .next t) : HostEffect s t := by
  unfold hostMove at h
  split at h
  · rw [next_inj.1 h]; exact .outside _ rfl rfl id
  · next op ops hops =>
    cases op with
    | write offset width w => exact .window t (windowWrite_effect h)
    | read offset width => rw [next_inj.1 h]; exact .outside _ rfl rfl fun h => ⟨h.mem, h.race, h.stale⟩
    | poll offset mask val => rw [next_inj.1 h]; exact hostPoll_effect _ _ _
    | pollAny offset mask => rw [next_inj.1 h]; exact hostPoll_effect _ _ _
    | busWrite addr bytes =>
      simp only [hostOp] at h
      split at h
      · exact .window t (windowWrite_effect h)
      · obtain ⟨hvad, hmp3, -⟩ := hostStoreBytes_rest addr.toNat bytes (popHostOp s)
        rw [next_inj.1 h]
        exact .outside _ hvad hmp3 fun h => hostStoreBytes_wf (popHostOp_wf h) _ _
    | busRead addr width =>
      simp only [hostOp] at h
      split at h <;> rw [next_inj.1 h] <;> exact .outside _ rfl rfl fun h => ⟨h.mem, h.race, h.stale⟩
    | store addr byte =>
      obtain ⟨hvad, hmp3, -⟩ := hostStore_rest addr byte (popHostOp s)
      rw [next_inj.1 h]
      exact .outside _ hvad hmp3 fun h => hostStore_wf (popHostOp_wf h) _ _
    | clean addr len => rw [next_inj.1 h]; exact .outside _ rfl rfl fun h => hostClean_wf (popHostOp_wf h) _ _
    | assertRst => rw [next_inj.1 h]; exact .reset (by rw [hops]; rfl)

/-! ### A step of any agent -/

theorem vadCommand_unit (r : VadRun) : (vadCommand r).unit = .vad := by
  unfold vadCommand; split <;> rfl

theorem mp3Command_unit (r : Mp3Run) : (mp3Command r).unit = .mp3 := by
  unfold mp3Command; split <;> rfl

theorem vadExec_of_vadMove {s t : State} (h : vadMove s = .next t) : VadExec s t := by
  unfold vadMove at h
  split at h
  · rw [next_inj.1 h]; exact .nothing
  · exact vadExec_of_exec (vadCommand_unit _) h

theorem mp3Exec_of_mp3Move {s t : State} (h : mp3Move s = .next t) : Mp3Exec s t := by
  unfold mp3Move at h
  split at h
  · rw [next_inj.1 h]; exact .nothing
  · exact mp3Exec_of_exec (mp3Command_unit _) h

/-- What the agent whose turn it is can do (60_exceptions.md R141). -/
inductive AgentEffect (s : State) : State → Prop where
  | host (t : State) (turn : s.env.turn = .host) (effect : HostEffect s t) : AgentEffect s t
  | vadUnit (t : State) (turn : s.env.turn = .vadUnit) (effect : VadExec s t) : AgentEffect s t
  | mp3Unit (t : State) (turn : s.env.turn = .mp3Unit) (effect : Mp3Exec s t) : AgentEffect s t
  | hostMemory (turn : s.env.turn = .hostMemory) : AgentEffect s (memoryMove s)
  | innerVad (turn : s.env.turn = .innerVad) : AgentEffect s (innerVadMove s)
  | innerDecoder (turn : s.env.turn = .innerDecoder) : AgentEffect s (innerDecoderMove s)

/-- Every step is the turn taken, then what its agent can do. -/
theorem step_effect {s t : State} (h : step s = .next t) : AgentEffect (takeTurn s) t := by
  change agentMove (takeTurn s) = .next t at h
  unfold agentMove at h
  split at h
  · next turn => exact .host t turn (hostMove_effect h)
  · next turn => exact .vadUnit t turn (vadExec_of_vadMove h)
  · next turn => exact .mp3Unit t turn (mp3Exec_of_mp3Move h)
  · next turn => rw [next_inj.1 h]; exact .hostMemory turn
  · next turn => rw [next_inj.1 h]; exact .innerVad turn
  · next turn => rw [next_inj.1 h]; exact .innerDecoder turn

end Sys2Proof.Machine
end

section
/-! SUPPORT. The VAD unit's part of the invariant under each shared operation (10_state.md R41; 20_memory.md R53;
41_vad_frame_assembler.md R99 to R107; 42_vad_decision.md R110; 43_vad_session.md R115, R121). -/

namespace Sys2Proof.Machine

/-! ### The supported rates -/

/-- The four supported rates with their frame lengths (43_vad_session.md R114). -/
theorem rates_cases {rate : Word} (h : rate ∈ Config.rates) :
    (rate = 8000 ∧ flenOf rate = 240) ∨ (rate = 16000 ∧ flenOf rate = 480)
    ∨ (rate = 32000 ∧ flenOf rate = 960) ∨ (rate = 48000 ∧ flenOf rate = 1440) := by
  have cases : rate = 8000 ∨ rate = 16000 ∨ rate = 32000 ∨ rate = 48000 := by simpa using h
  rcases cases with rfl | rfl | rfl | rfl
  · exact .inl ⟨rfl, by decide⟩
  · exact .inr (.inl ⟨rfl, by decide⟩)
  · exact .inr (.inr (.inl ⟨rfl, by decide⟩))
  · exact .inr (.inr (.inr ⟨rfl, by decide⟩))

theorem rate_ne_zero {rate : Word} (h : rate ∈ Config.rates) : rate ≠ 0 := by
  rintro rfl
  exact absurd h (by decide)

/-- Every frame fits in RB, and has at least the 240 samples of the lowest rate. -/
theorem flenOf_bounds {rate : Word} (h : rate ∈ Config.rates) :
    240 ≤ (flenOf rate).toNat ∧ (flenOf rate).toNat ≤ 1440 := by
  rcases rates_cases h with ⟨-, e⟩ | ⟨-, e⟩ | ⟨-, e⟩ | ⟨-, e⟩ <;> rw [e] <;> decide

/-- A rate check that passes gives a supported rate with its frame length (43_vad_session.md R115). -/
theorem rateCheck_supported {u : VadUnit} (hc : VadCommitted u) {rateA rate flen : Word}
    (h : rateCheck rateA u = some (rate, flen)) : rate ∈ Config.rates ∧ flen = flenOf rate := by
  obtain ⟨rfl, ⟨-, mem, rfl⟩ | ⟨locked, rfl, rfl⟩⟩ := rateCheck_cases h
  · exact ⟨mem, rfl⟩
  · obtain ⟨mem, hf, -⟩ := hc.locked locked
    exact ⟨mem, hf⟩

/-- The committed offset is inside the frame of any rate that the check passes (43_vad_session.md R115, R117). -/
theorem off_lt_flen {u : VadUnit} (hc : VadCommitted u) {rateA rate flen : Word}
    (h : rateCheck rateA u = some (rate, flen)) : u.off.toNat < flen.toNat := by
  obtain ⟨-, ⟨unlocked, mem, rfl⟩ | ⟨locked, -, rfl⟩⟩ := rateCheck_cases h
  · rw [(hc.unlocked unlocked).2]
    exact Nat.lt_of_lt_of_le (by decide) (flenOf_bounds mem).1
  · exact (hc.locked locked).2.2

/-! ### Which registers each part depends on -/

/-- The session registers, on which the rate check and the working copies depend, agree. -/
structure SameSession (u v : VadUnit) : Prop where
  rate : v.rate = u.rate
  flen : v.flen = u.flen
  off : v.off = u.off

theorem rateCheck_congr {u v : VadUnit} (h : SameSession u v) (rateA : Word) :
    rateCheck rateA v = rateCheck rateA u := by
  unfold rateCheck
  rw [h.rate, h.flen]

/-- The iterator's invariant depends on the session, the ring and the read record only. -/
theorem WorkOk.congr {u v : VadUnit} {run : VadRun} {w : ProcWork} (h : WorkOk u run w) (hs : SameSession u v)
    (hrb : v.rb = u.rb) (hlog : v.memLog = u.memLog) : WorkOk v run w where
  checked := (rateCheck_congr hs _).trans h.checked
  offset := h.offset
  rest := h.rest
  pointer := h.pointer
  count := by rw [hs.off]; exact h.count
  written := by unfold ringWritten; rw [hrb]; exact h.written
  reads := by rw [hlog]; exact h.reads
  filled := by rw [hlog, hrb, hs.off]; exact h.filled

/-- The iterator's invariant knows the command by its latched arguments, not by its sequencer's position. -/
theorem WorkOk.goto {u : VadUnit} {run : VadRun} {w : ProcWork} (h : WorkOk u run w) (seq : VadSeq) :
    WorkOk u { run with seq := seq } w where
  checked := h.checked
  offset := h.offset
  rest := h.rest
  pointer := h.pointer
  count := h.count
  written := h.written
  reads := h.reads
  filled := h.filled

theorem RingOk.congr {u v : VadUnit} (h : RingOk u) (hrb : v.rb = u.rb) (hoff : v.off = u.off) : RingOk v where
  wf := hrb ▸ h.wf
  inside := hrb ▸ h.inside
  overhang := by unfold ringWritten; rw [hrb, hoff]; exact h.overhang

/-- The flags that the host sees and its argument registers are no part of the invariant. -/
theorem VadOk.withFlags {u : VadUnit} (h : VadOk u) (done cmdErr overrun : Bool) (errCause : Cause)
    (a0 a1 a2 : Word) :
    VadOk { u with
      done := done, cmdErr := cmdErr, overrun := overrun, errCause := errCause
      arg0 := a0, arg1 := a1, arg2 := a2 } where
  committed := ⟨h.committed.unlocked, h.committed.locked, h.committed.event, h.committed.rejected, h.committed.total⟩
  ring := h.ring.congr rfl rfl
  requests := h.requests
  running := by
    have hr := h.running
    unfold VadRunOk at hr ⊢
    cases hrun : u.run with
    | none => simpa only [hrun] using hr
    | some run =>
      obtain ⟨rateA, addrA, blenA, seq⟩ := run
      simp only [hrun] at hr ⊢
      cases seq with
      | init => exact hr
      | setmode => exact hr
      | process pos =>
        obtain ⟨args, hpos⟩ := hr
        refine ⟨args, ?_⟩
        cases pos with
        | start => exact hpos
        | loop w => exact ⟨hpos.1.congr ⟨rfl, rfl, rfl⟩ rfl rfl, hpos.2⟩
        | memWait w => exact ⟨hpos.1.congr ⟨rfl, rfl, rfl⟩ rfl rfl, hpos.2⟩
        | ivadWait w => exact ⟨hpos.1.congr ⟨rfl, rfl, rfl⟩ rfl rfl, hpos.2⟩

/-! ### What the position says of the ports -/

/-- Both ports of the VAD unit are idle. -/
def vadPortsIdle (u : VadUnit) : Prop := u.memPort = .idle ∧ u.ivadPort = .idle

theorem VadOk.idle_ports {u : VadUnit} (h : VadOk u) (hrun : u.run = none) : vadPortsIdle u := by
  have hr := h.running
  unfold VadRunOk at hr
  rw [hrun] at hr
  exact hr

theorem VadOk.init_ports {u : VadUnit} (h : VadOk u) {run : VadRun} {pulsed : Bool} (hrun : u.run = some run)
    (hseq : run.seq = .init pulsed) : vadPortsIdle u := by
  have hr := h.running
  unfold VadRunOk at hr
  simp only [hrun, hseq] at hr
  exact hr

theorem VadOk.setmode_ports {u : VadUnit} (h : VadOk u) {run : VadRun} (hrun : u.run = some run)
    (hseq : run.seq = .setmode) : vadPortsIdle u := by
  have hr := h.running
  unfold VadRunOk at hr
  simp only [hrun, hseq] at hr
  exact hr

theorem VadOk.process {u : VadUnit} (h : VadOk u) {run : VadRun} {pos : ProcPos} (hrun : u.run = some run)
    (hseq : run.seq = .process pos) : checkProcessArgs run.addrA run.blenA = none ∧ ProcOk u run pos := by
  have hr := h.running
  unfold VadRunOk at hr
  simp only [hrun, hseq] at hr
  exact hr

/-- A memory request is on its port only where the iterator waits for it. -/
theorem VadOk.of_memPending {u : VadUnit} (h : VadOk u) {a : Word} (hp : u.memPort = .pending a) :
    ∃ run w, u.run = some run ∧ run.seq = .process (.memWait w) := by
  have hr := h.running
  unfold VadRunOk at hr
  cases hrun : u.run with
  | none => rw [hrun] at hr; cases hp.symm.trans hr.1
  | some run =>
    simp only [hrun] at hr
    refine ⟨run, ?_⟩
    cases hseq : run.seq with
    | init => simp only [hseq] at hr; cases hp.symm.trans hr.1
    | setmode => simp only [hseq] at hr; cases hp.symm.trans hr.1
    | process pos =>
      simp only [hseq] at hr
      obtain ⟨-, hpos⟩ := hr
      cases pos with
      | start => cases hp.symm.trans hpos.1
      | loop w => cases hp.symm.trans hpos.2.1
      | memWait w => exact ⟨w, rfl, rfl⟩
      | ivadWait w => cases hp.symm.trans hpos.2.2.1

/-- A frame request is on its port only where the iterator waits for its verdict. -/
theorem VadOk.of_ivadPending {u : VadUnit} (h : VadOk u) {r : IvadReq} (hp : u.ivadPort = .pending r) :
    ∃ run w, u.run = some run ∧ run.seq = .process (.ivadWait w) := by
  have hr := h.running
  unfold VadRunOk at hr
  cases hrun : u.run with
  | none => rw [hrun] at hr; cases hp.symm.trans hr.2
  | some run =>
    simp only [hrun] at hr
    refine ⟨run, ?_⟩
    cases hseq : run.seq with
    | init => simp only [hseq] at hr; cases hp.symm.trans hr.2
    | setmode => simp only [hseq] at hr; cases hp.symm.trans hr.2
    | process pos =>
      simp only [hseq] at hr
      obtain ⟨-, hpos⟩ := hr
      cases pos with
      | start => cases hp.symm.trans hpos.2.1
      | loop w => cases hp.symm.trans hpos.2.2
      | memWait w => cases hp.symm.trans hpos.2.2.2.1
      | ivadWait w => exact ⟨w, rfl, rfl⟩

/-! ### Acceptance, reset and the ends without an iterator -/

theorem VadOk.reset (epoch : Nat) {log : List IvadEvent}
    (h : ∀ r, IvadEvent.request r ∈ log → frameRequestOk r) : VadOk (VadUnit.reset epoch log) where
  committed := ⟨fun _ => ⟨rfl, rfl⟩, fun h => absurd rfl h, .inr (.inl rfl), fun h => (Bool.false_ne_true h).elim,
    (by decide : (0 : Nat) < 8388608)⟩
  ring := ⟨List.Pairwise.nil, fun c hc => (List.not_mem_nil hc).elim, fun k hk => (Nat.not_lt_zero k hk).elim⟩
  running := ⟨rfl, rfl⟩
  requests := fun r hr => h r (by simpa [VadUnit.reset] using hr)

theorem VadOk.accept {s : State} (h : VadOk s.vad) {seq : VadSeq} (idle : s.vad.run = none)
    (fresh : seq = .init false ∨ seq = .setmode
      ∨ seq = .process .start ∧ checkProcessArgs s.vad.arg1 s.vad.arg2 = none) :
    VadOk (acceptVad seq s).vad where
  committed := ⟨h.committed.unlocked, h.committed.locked, h.committed.event, h.committed.rejected, h.committed.total⟩
  ring := h.ring.congr rfl rfl
  requests := h.requests
  running := by
    obtain ⟨hm, hi⟩ := h.idle_ports idle
    rcases fresh with rfl | rfl | ⟨rfl, args⟩
    · exact ⟨hm, hi⟩
    · exact ⟨hm, hi⟩
    · exact ⟨args, hm, hi, rfl⟩

theorem VadOk.initPulse {s : State} (h : VadOk s.vad) {run : VadRun} (running : s.vad.run = some run)
    (hseq : run.seq = .init false) : VadOk (vadGoto (.init true) (pulseIvad s)).vad where
  committed := ⟨h.committed.unlocked, h.committed.locked, h.committed.event, h.committed.rejected, h.committed.total⟩
  ring := h.ring.congr rfl rfl
  requests := fun r hr => h.requests r (by simpa using hr)
  running := by
    unfold VadRunOk
    simp only [vadGoto_vad_run, pulseIvad_vad_run, running, Option.map_some]
    exact h.init_ports running hseq

theorem VadOk.initEnd {s : State} (h : VadOk s.vad) {run : VadRun} (running : s.vad.run = some run)
    (hseq : run.seq = .init true) : VadOk (completeVad initCommit s).vad where
  committed := ⟨fun _ => ⟨rfl, rfl⟩, fun h => absurd rfl h, .inr (.inr rfl), fun h => (Bool.false_ne_true h).elim,
    (by decide : (0 : Nat) < 8388608)⟩
  ring := ⟨h.ring.wf, h.ring.inside, fun k hk => (Nat.not_lt_zero k hk).elim⟩
  requests := h.requests
  running := h.init_ports running hseq

/-- VAD_SETMODE commits a mode or none, RESULT 1 or 0, and nothing of the session (43_vad_session.md R123). -/
theorem setmodeCommit_eq (m : Word) :
    (setmodeCommit m).session = none ∧ (setmodeCommit m).hist = none ∧ (setmodeCommit m).rateReject = false
    ∧ ((setmodeCommit m).result = 0 ∨ (setmodeCommit m).result = 1) := by
  unfold setmodeCommit
  split
  · exact ⟨rfl, rfl, rfl, .inr rfl⟩
  · exact ⟨rfl, rfl, rfl, .inl rfl⟩

theorem VadOk.setmodeEnd {s : State} (h : VadOk s.vad) {run : VadRun} (running : s.vad.run = some run)
    (hseq : run.seq = .setmode) : VadOk (completeVad (setmodeCommit run.rateA) s).vad := by
  obtain ⟨hsession, hhist, hreject, hresult⟩ := setmodeCommit_eq run.rateA
  refine ⟨⟨?_, ?_, .inr hresult, ?_, ?_⟩, h.ring.congr rfl ?_, h.setmode_ports running hseq, h.requests⟩
  · simpa [hsession] using h.committed.unlocked
  · simpa [hsession] using h.committed.locked
  · simp [hreject]
  · simpa [hhist] using h.committed.total
  · simp [hsession]

theorem VadOk.rateFail {s : State} (h : VadOk s.vad) {run : VadRun} (running : s.vad.run = some run)
    (hseq : run.seq = .process .start) : VadOk (completeVad rateFailCommit s).vad where
  committed := ⟨h.committed.unlocked, h.committed.locked, .inl (by decide : eventBits (-1) = 0xFFFFFFFF),
    fun _ => ⟨(by decide : eventBits (-1) = 0xFFFFFFFF), rfl⟩, (by decide : (0 : Nat) < 8388608)⟩
  ring := h.ring.congr rfl rfl
  requests := h.requests
  running := by
    obtain ⟨-, hm, hi, -⟩ := h.process running hseq
    exact ⟨hm, hi⟩

/-! ### The frame iterator -/

/-- What holds at the head of the iterator loop: the invariant, with both ports idle. -/
structure HeadOk (u : VadUnit) (run : VadRun) (w : ProcWork) : Prop where
  committed : VadCommitted u
  ring : RingOk u
  requests : ∀ r, IvadEvent.request r ∈ u.ivadLog → frameRequestOk r
  running : u.run = some run
  args : checkProcessArgs run.addrA run.blenA = none
  work : WorkOk u run w
  ports : vadPortsIdle u

/-- The iterator starts with the overhang alone (41_vad_frame_assembler.md R99). -/
theorem WorkOk.start {u : VadUnit} {run : VadRun} {rate flen : Word} (hc : VadCommitted u) (hr : RingOk u)
    (hlog : u.memLog = []) (checked : rateCheck run.rateA u = some (rate, flen)) :
    WorkOk u run (startWork rate flen run u) where
  checked := checked
  offset := Nat.le_of_lt (off_lt_flen hc checked)
  rest := Nat.le_refl _
  pointer := rfl
  count := by simp [startWork, countsZero, countsTotal]
  written := hr.overhang
  reads := by simp [hlog, startWork, samplesRead]
  filled := fun k hk hle => by
    have hk' : k < u.off.toNat := hk
    simp [startWork, countsZero, countsTotal] at hle
    omega

/-- The words read so far are as many as the samples read. -/
theorem WorkOk.reads_length {u : VadUnit} {run : VadRun} {w : ProcWork} (h : WorkOk u run w) :
    u.memLog.reverse.length = samplesRead run w := by
  have := congrArg List.length h.reads
  simpa using this

/-- Filling the next sample keeps the iterator's invariant (41_vad_frame_assembler.md R100, R101). -/
theorem WorkOk.fill {s : State} {run : VadRun} {w : ProcWork} (h : WorkOk s.vad run w)
    (room : w.off < w.flen.toNat) (left : 0 < w.rem) (word : Word) :
    WorkOk (fillSample w word s).vad run (workAfterSample w) := by
  have hlen := h.reads_length
  have hrest := h.rest
  have hpointer := h.pointer
  have hcount := h.count
  have hsamples : samplesRead run (workAfterSample w) = samplesRead run w + 1 := by
    simp only [samplesRead, workAfterSample]; omega
  have haddr : w.p = run.addrA.toNat + 4 * samplesRead run w := by
    simp only [samplesRead]; omega
  refine ⟨h.checked, ?_, ?_, ?_, ?_, ?_, ?_, ?_⟩
  · exact room
  · simp only [workAfterSample]; omega
  · simp only [workAfterSample]; omega
  · simp only [workAfterSample, fillSample_vad_off]; omega
  · intro k hk
    rw [fillSample_vad_rb, cellGet_set]
    split
    · rfl
    · next hne => exact h.written k (by simp only [workAfterSample] at hk; omega)
  · rw [hsamples, List.range_succ, List.map_append, ← h.reads, fillSample_vad_memLog, haddr]
    simp
  · intro k hk hle
    simp only [workAfterSample, fillSample_vad_off, fillSample_vad_memLog, fillSample_vad_rb,
      List.reverse_cons] at hk hle ⊢
    by_cases hlast : k = w.off
    · subst hlast
      have hindex : countsTotal w.hist * w.flen.toNat + w.off - s.vad.off.toNat = s.vad.memLog.reverse.length := by
        rw [hlen]
        simp only [samplesRead]
        omega
      refine ⟨(BitVec.ofNat 32 w.p, word), ?_, cellGet_set_same _ _ _⟩
      rw [hindex, List.getElem?_concat_length]
    · obtain ⟨e, he, hget⟩ := h.filled k (by omega) hle
      obtain ⟨hlt, -⟩ := List.getElem?_eq_some_iff.1 he
      exact ⟨e, (List.getElem?_append_left hlt).trans he, (cellGet_set_ne _ _ hlast).trans hget⟩

/-- Each verdict is counted in exactly one bucket (43_vad_session.md R119). -/
theorem countsTotal_verdict (h : Counts) (code : BitVec 2) :
    countsTotal (countVerdict h code) = countsTotal h + 1 := by
  unfold countVerdict countsTotal
  split_ifs <;> dsimp only <;> omega

/-- A verdict counted and the offset back at 0 keep the iterator's invariant (41_vad_frame_assembler.md R102). -/
theorem WorkOk.verdict {u : VadUnit} {run : VadRun} {w : ProcWork} (h : WorkOk u run w)
    (full : w.off = w.flen.toNat) (code : BitVec 2) : WorkOk u run (workAfterVerdict w code) where
  checked := h.checked
  offset := Nat.zero_le _
  rest := h.rest
  pointer := h.pointer
  count := by
    have hcount := h.count
    simp only [workAfterVerdict, countsTotal_verdict, Nat.succ_mul]
    omega
  written := fun k hk => (Nat.not_lt_zero k hk).elim
  reads := h.reads
  filled := fun k hk => (Nat.not_lt_zero k hk).elim

theorem RingOk.fill {s : State} (h : RingOk s.vad) {w : ProcWork} (inside : w.off < Config.rbCap) (word : Word) :
    RingOk (fillSample w word s).vad where
  wf := cellSet_wf h.wf _ _
  inside := fun c hc => by
    rcases mem_cellSet hc with rfl | hc
    · exact inside
    · exact h.inside c hc
  overhang := fun k hk => by
    rw [fillSample_vad_rb, cellGet_set]
    split
    · rfl
    · exact h.overhang k hk

/-- Every way to the loop head comes there with the invariant and idle ports. -/
theorem atHead_ok {s s' : State} {run : VadRun} {w : ProcWork} (h : VadOk s.vad) (running : s.vad.run = some run)
    (head : AtHead s run w s') : HeadOk s'.vad run w := by
  cases head with
  | start rate flen seq checked =>
    obtain ⟨args, hm, hi, hlog⟩ := h.process running seq
    exact ⟨h.committed, h.ring, h.requests, running, args, .start h.committed h.ring hlog checked, hm, hi⟩
  | verdict w seq =>
    obtain ⟨args, work, ports⟩ := h.process running seq
    exact ⟨h.committed, h.ring, h.requests, running, args, work, ports⟩
  | sample w word seq answered inside =>
    obtain ⟨args, work, room, left, hi, -⟩ := h.process running seq
    exact ⟨⟨h.committed.unlocked, h.committed.locked, h.committed.event, h.committed.rejected, h.committed.total⟩,
      h.ring.fill inside word, h.requests, running, args, work.fill room left word, rfl, hi⟩

/-- A full frame's request meets the inner VAD's precondition (43_vad_session.md R121). -/
theorem HeadOk.frameRequest_ok {u : VadUnit} {run : VadRun} {w : ProcWork} (h : HeadOk u run w) :
    frameRequestOk (frameRequest w u) := by
  obtain ⟨mem, hf⟩ := rateCheck_supported h.committed h.work.checked
  exact ⟨mem, hf, by simp [frameRequest, ringPrefix]⟩

/-- A command counts fewer frames than 2^23: its samples are fewer than 2^30, and a frame takes 240 of them at least
(42_vad_decision.md R110). -/
theorem HeadOk.total_lt {u : VadUnit} {run : VadRun} {w : ProcWork} (h : HeadOk u run w) :
    countsTotal w.hist < 8388608 := by
  obtain ⟨mem, hf⟩ := rateCheck_supported h.committed h.work.checked
  have hoff := off_lt_flen h.committed h.work.checked
  have hcount := h.work.count
  have hsamples : sampleCount run.blenA < 1073741824 := by
    have := run.blenA.isLt
    unfold sampleCount
    omega
  rw [hf] at hoff hcount
  obtain ⟨hlow, hhigh⟩ := flenOf_bounds mem
  have hframes := Nat.mul_le_mul_left (countsTotal w.hist) hlow
  omega

/-- The histogram registers hold the counters exactly, and so add up to the total (10_state.md R26). -/
theorem countsRegs_total {h : Counts} (hlt : countsTotal h < 8388608) :
    (countsRegs h).err.toNat + (countsRegs h).sil.toNat + (countsRegs h).voi.toNat + (countsRegs h).noi.toNat
      = countsTotal h := by
  unfold countsTotal at *
  simp only [countsRegs, BitVec.toNat_ofNat]
  omega

/-- Each event has one of the three patterns of RESULT (00_scope.md R8). -/
theorem eventBits_decideEvent (h : Counts) :
    eventBits (decideEvent h) = 0xFFFFFFFF ∨ eventBits (decideEvent h) = 0 ∨ eventBits (decideEvent h) = 1 := by
  unfold decideEvent
  split_ifs
  · exact .inr (.inl (by decide))
  · exact .inl (by decide)
  · exact .inr (.inr (by decide))
  · exact .inr (.inl (by decide))

/-- The end of the iterator commits a session that meets 10_state.md R41. -/
theorem HeadOk.complete_ok {s : State} {run : VadRun} {w : ProcWork} (h : HeadOk s.vad run w)
    (room : w.off < w.flen.toNat) : VadOk (completeVad (processCommit w) s).vad := by
  obtain ⟨mem, hf⟩ := rateCheck_supported h.committed h.work.checked
  have hoff : (BitVec.ofNat 32 w.off).toNat = w.off := by
    have := w.flen.isLt
    rw [BitVec.toNat_ofNat]
    omega
  refine ⟨⟨fun h0 => absurd h0 (rate_ne_zero mem), fun _ => ⟨mem, hf, ?_⟩, eventBits_decideEvent _,
    fun h => (Bool.false_ne_true h).elim, ?_⟩, ⟨h.ring.wf, h.ring.inside, ?_⟩, h.ports, h.requests⟩
  · exact hoff.trans_lt room
  · exact (countsRegs_total h.total_lt).trans_lt h.total_lt
  · intro k hk
    exact h.work.written k (Nat.lt_of_lt_of_eq hk hoff)

/-- A pass of the loop keeps the VAD unit's invariant. -/
theorem HeadOk.iterate_ok {s t : State} {run : VadRun} {w : ProcWork} (h : HeadOk s.vad run w)
    (next : iterate w s = .next t) : VadOk t.vad := by
  have hc := h.committed
  obtain ⟨hm, hi⟩ := h.ports
  rcases iterate_cases next with ⟨full, rfl⟩ | ⟨room, -, rfl⟩ | ⟨room, left, -, -, rfl⟩
  · refine ⟨⟨hc.unlocked, hc.locked, hc.event, hc.rejected, hc.total⟩, h.ring.congr rfl rfl, ?_, fun r hr => ?_⟩
    · unfold VadRunOk
      simp only [vadGoto_vad_run, postIvad_vad_run, h.running, Option.map_some]
      exact ⟨h.args, (h.work.goto _).congr ⟨rfl, rfl, rfl⟩ rfl rfl, Nat.le_antisymm h.work.offset full, hm, .inl rfl⟩
    · rcases List.mem_cons.1 hr with e | hr
      · injection e with e
        exact e ▸ h.frameRequest_ok
      · exact h.requests r hr
  · exact h.complete_ok room
  · refine ⟨⟨hc.unlocked, hc.locked, hc.event, hc.rejected, hc.total⟩, h.ring.congr rfl rfl, ?_, h.requests⟩
    unfold VadRunOk
    simp only [vadGoto_vad_run, postMem_vad_run, h.running, Option.map_some]
    exact ⟨h.args, (h.work.goto _).congr ⟨rfl, rfl, rfl⟩ rfl rfl, room, left, hi, .inl rfl⟩

theorem VadOk.takeVerdict {s : State} (h : VadOk s.vad) {run : VadRun} {w : ProcWork} {code : BitVec 2}
    (running : s.vad.run = some run) (hseq : run.seq = .process (.ivadWait w)) :
    VadOk (takeVerdict w code s).vad := by
  obtain ⟨args, work, full, hm, -⟩ := h.process running hseq
  have hc := h.committed
  refine ⟨⟨hc.unlocked, hc.locked, hc.event, hc.rejected, hc.total⟩, h.ring.congr rfl rfl, ?_, h.requests⟩
  unfold VadRunOk Machine.takeVerdict
  simp only [vadGoto_vad_run, running, Option.map_some]
  exact ⟨args, ((work.verdict full code).goto _).congr ⟨rfl, rfl, rfl⟩ rfl rfl, hm, rfl⟩

/-! ### Every step -/

/-- Every step of a VAD command keeps the VAD unit's invariant. -/
theorem VadExec.keeps_vadOk {s t : State} (h : VadExec s t) (hv : VadOk s.vad) : VadOk t.vad := by
  cases h with
  | nothing => exact hv
  | overruns => exact hv.withFlags _ _ true _ _ _ _
  | rejects cause => exact hv.withFlags _ true _ cause _ _ _
  | accepts seq turn idle fresh => exact hv.accept idle fresh
  | initPulse run turn running seq => exact hv.initPulse running seq
  | initEnd run turn running seq => exact hv.initEnd running seq
  | setmodeEnd run turn running seq => exact hv.setmodeEnd running seq
  | rateFail run turn running seq => exact hv.rateFail running seq
  | pass run w s' t turn running head next => exact (atHead_ok hv running head).iterate_ok next
  | verdict run w code turn running seq => exact hv.takeVerdict running seq

/-- The answer of host memory keeps it. -/
theorem VadOk.memAnswered {u : VadUnit} (h : VadOk u) {a : Word} (hp : u.memPort = .pending a) (word : Word) :
    VadOk { u with memPort := .answered word } := by
  obtain ⟨run, w, running, hseq⟩ := h.of_memPending hp
  obtain ⟨args, work, room, left, hi, -⟩ := h.process running hseq
  have hc := h.committed
  refine ⟨⟨hc.unlocked, hc.locked, hc.event, hc.rejected, hc.total⟩, h.ring.congr rfl rfl, ?_, h.requests⟩
  unfold VadRunOk
  simp only [running, hseq]
  exact ⟨args, work.congr ⟨rfl, rfl, rfl⟩ rfl rfl, room, left, hi, .inr ⟨word, rfl⟩⟩

/-- The answer of the inner VAD keeps it. -/
theorem VadOk.ivadAnswered {u : VadUnit} (h : VadOk u) {r : IvadReq} (hp : u.ivadPort = .pending r) (code : BitVec 2) :
    VadOk { u with ivadPort := .answered code, ivadLog := .answer code :: u.ivadLog } := by
  obtain ⟨run, w, running, hseq⟩ := h.of_ivadPending hp
  obtain ⟨args, work, full, hm, -⟩ := h.process running hseq
  have hc := h.committed
  refine ⟨⟨hc.unlocked, hc.locked, hc.event, hc.rejected, hc.total⟩, h.ring.congr rfl rfl, ?_,
    fun q hq => h.requests q (by simpa using hq)⟩
  unfold VadRunOk
  simp only [running, hseq]
  exact ⟨args, work.congr ⟨rfl, rfl, rfl⟩ rfl rfl, full, hm, .inr ⟨code, rfl⟩⟩

theorem memoryMove_keeps_vadOk {s : State} (h : VadOk s.vad) : VadOk (memoryMove s).vad := by
  rcases memoryMove_cases s with e | ⟨a, word, s', hp, answer, e⟩ <;> rw [e]
  · exact h
  · have hvad : s'.vad = s.vad := by
      rcases memRead_cases answer with ⟨-, -, rfl⟩ | ⟨-, -, rfl⟩ | ⟨v, -, rfl, -⟩ <;> rfl
    simp only [hvad]
    exact h.memAnswered hp word

theorem innerVadMove_keeps_vadOk {s : State} (h : VadOk s.vad) : VadOk (innerVadMove s).vad := by
  rcases innerVadMove_cases s with e | ⟨r, code, hp, e⟩ <;> rw [e]
  · exact h
  · exact h.ivadAnswered hp code

end Sys2Proof.Machine
end

section
/-! SUPPORT. The MP3 unit's part of the invariant under each shared operation (40_mp3_bootstrap.md R79, R83 to R89). -/

namespace Sys2Proof.Machine

/-- The flags that the host sees and its argument registers are no part of the invariant. -/
theorem Mp3Ok.withFlags {u : Mp3Unit} (h : Mp3Ok u) (done cmdErr overrun : Bool) (errCause : Cause)
    (a0 a1 a2 a3 : Word) :
    Mp3Ok { u with
      done := done, cmdErr := cmdErr, overrun := overrun, errCause := errCause
      arg0 := a0, arg1 := a1, arg2 := a2, arg3 := a3 } where
  committed := ⟨h.committed.samples, h.committed.error, h.committed.needMore, h.committed.skipped, h.committed.walked⟩
  running := by
    have hr := h.running
    unfold Mp3RunOk at hr ⊢
    cases hrun : u.run with
    | none => simpa only [hrun] using hr
    | some run =>
      obtain ⟨inA, lenA, leftA, rightA, seq⟩ := run
      simp only [hrun] at hr ⊢
      cases seq with
      | reset => exact hr
      | decode fmt pos => exact ⟨hr.1, by cases pos <;> exact hr.2⟩
  requests := h.requests

/-! ### What the position says of the port -/

theorem Mp3Ok.idle_port {u : Mp3Unit} (h : Mp3Ok u) (hrun : u.run = none) : u.idecPort = .idle := by
  have hr := h.running
  unfold Mp3RunOk at hr
  rw [hrun] at hr
  exact hr

theorem Mp3Ok.reset_port {u : Mp3Unit} (h : Mp3Ok u) {run : Mp3Run} {pulsed : Bool} (hrun : u.run = some run)
    (hseq : run.seq = .reset pulsed) : u.idecPort = .idle := by
  have hr := h.running
  unfold Mp3RunOk at hr
  simp only [hrun, hseq] at hr
  exact hr

theorem Mp3Ok.decode {u : Mp3Unit} (h : Mp3Ok u) {run : Mp3Run} {fmt : Fmt} {pos : DecPos} (hrun : u.run = some run)
    (hseq : run.seq = .decode fmt pos) :
    checkDecodeArgs fmt run.inA run.lenA run.leftA run.rightA = none ∧ DecOk u run fmt pos := by
  have hr := h.running
  unfold Mp3RunOk at hr
  simp only [hrun, hseq] at hr
  exact hr

/-- A call is on the port only where the sequencer waits for its answer. -/
theorem Mp3Ok.of_idecPending {u : Mp3Unit} (h : Mp3Ok u) {r : IdecReq} (hp : u.idecPort = .pending r) :
    ∃ run fmt b, u.run = some run ∧ run.seq = .decode fmt (.wait b) := by
  cases hrun : u.run with
  | none => cases hp.symm.trans (h.idle_port hrun)
  | some run =>
    refine ⟨run, ?_⟩
    cases hseq : run.seq with
    | reset => cases hp.symm.trans (h.reset_port hrun hseq)
    | decode fmt pos =>
      obtain ⟨-, hpos⟩ := h.decode hrun hseq
      cases pos with
      | call b => cases hp.symm.trans hpos.2
      | wait b => exact ⟨fmt, b, rfl, rfl⟩
      | finish b n => cases hp.symm.trans hpos.2

/-! ### Acceptance, reset and MP3_RESET -/

/-- The registers of MP3_RESET and of the hardware reset meet 40_mp3_bootstrap.md R89. -/
theorem Mp3Committed.of_zero {u : Mp3Unit} (hn : u.n = 0) (hsamples : u.samples = 0) (herror : u.error = false)
    (hmore : u.needMore = false) (htrace : u.trace = traceZero) : Mp3Committed u where
  samples := by rw [hn, hsamples]; decide
  error := by rw [hn, herror]; decide
  needMore := by rw [hn, hmore, htrace]; decide
  skipped := by rw [htrace]; exact fun _ => rfl
  walked := fun _ => .inr htrace

theorem Mp3Ok.reset {log : List IdecEvent}
    (h : ∀ r, IdecEvent.request r ∈ log → checkDecodeArgs r.fmt r.inPtr r.inLen r.left r.right = none) :
    Mp3Ok (Mp3Unit.reset log) where
  committed := .of_zero rfl rfl rfl rfl rfl
  running := rfl
  requests := fun r hr => h r (by simpa [Mp3Unit.reset] using hr)

theorem Mp3Ok.accept {s : State} (h : Mp3Ok s.mp3) {seq : Mp3Seq} (idle : s.mp3.run = none)
    (fresh : seq = .reset false ∨ ∃ fmt, seq = .decode fmt (.call bootStart)
      ∧ checkDecodeArgs fmt s.mp3.arg0 s.mp3.arg1 s.mp3.arg2 s.mp3.arg3 = none) :
    Mp3Ok (acceptMp3 seq s).mp3 where
  committed := ⟨h.committed.samples, h.committed.error, h.committed.needMore, h.committed.skipped, h.committed.walked⟩
  running := by
    rcases fresh with rfl | ⟨fmt, rfl, args⟩
    · exact h.idle_port idle
    · exact ⟨args, .inl rfl, h.idle_port idle⟩
  requests := h.requests

theorem Mp3Ok.resetPulse {s : State} (h : Mp3Ok s.mp3) {run : Mp3Run} (running : s.mp3.run = some run)
    (hseq : run.seq = .reset false) : Mp3Ok (mp3Goto (.reset true) (pulseIdec s)).mp3 where
  committed := ⟨h.committed.samples, h.committed.error, h.committed.needMore, h.committed.skipped, h.committed.walked⟩
  running := by
    unfold Mp3RunOk
    simp only [mp3Goto_mp3_run, pulseIdec_mp3_run, running, Option.map_some]
    exact h.reset_port running hseq
  requests := fun r hr => h.requests r (by simpa using hr)

theorem Mp3Ok.resetEnd {s : State} (h : Mp3Ok s.mp3) {run : Mp3Run} (running : s.mp3.run = some run)
    (hseq : run.seq = .reset true) : Mp3Ok (completeMp3 resetCommit s).mp3 where
  committed := .of_zero rfl rfl rfl rfl rfl
  running := h.reset_port running hseq
  requests := h.requests

/-! ### The bootstrap -/

/-- Arguments that pass the check with any input pass it with the empty input of a flush call (40_mp3_bootstrap.md
R79, R84). -/
theorem checkDecodeArgs_flush {fmt : Fmt} {inp len l r : Word} (h : checkDecodeArgs fmt inp len l r = none) :
    checkDecodeArgs fmt 0 0 l r = none := by
  unfold checkDecodeArgs at h ⊢
  split at h
  · cases h
  · rw [if_neg (fun hempty => hempty.1 rfl)]
    exact h

/-- Every call's request meets the inner decoder's precondition (40_mp3_bootstrap.md R80). -/
theorem decodeRequest_ok {fmt : Fmt} {run : Mp3Run} (b : Boot)
    (h : checkDecodeArgs fmt run.inA run.lenA run.leftA run.rightA = none) :
    checkDecodeArgs (decodeRequest fmt run b).fmt (decodeRequest fmt run b).inPtr (decodeRequest fmt run b).inLen
      (decodeRequest fmt run b).left (decodeRequest fmt run b).right = none := by
  unfold decodeRequest
  split
  · exact h
  · exact checkDecodeArgs_flush h

/-- On the skip path the single call ends the decode in `init` (40_mp3_bootstrap.md R86). -/
theorem bootAfter_skip {run : Mp3Run} {b : Boot} (hlen : run.lenA = 0) (h : BootOk run b) (n : Word) (hp : Bool) :
    BootEnd run (bootAfter run b n hp) := by
  rcases h with rfl | ⟨hfed, -⟩ | ⟨hfed, -⟩ | ⟨hfed, -⟩
  · refine ⟨fun _ => ⟨?_, rfl⟩, fun hfed => absurd hlen hfed⟩
    unfold bootAfter
    exact if_pos hlen
  · exact absurd hlen hfed
  · exact absurd hlen hfed
  · exact absurd hlen hfed

/-- On the bootstrap path an answer either ends the decode in `done`, or leads to the next call's position
(40_mp3_bootstrap.md R83, R85). -/
theorem bootAfter_fed {run : Mp3Run} {b : Boot} (hlen : run.lenA ≠ 0) (h : BootOk run b) (n : Word) (hp : Bool) :
    ((bootAfter run b n hp).bst = .done ∧ BootEnd run (bootAfter run b n hp))
    ∨ ((bootAfter run b n hp).bst ≠ .done ∧ BootOk run (bootAfter run b n hp)) := by
  have hfed : ¬run.lenA = 0#32 := hlen
  rcases h with rfl | ⟨-, rfl⟩ | ⟨-, rfl⟩ | ⟨-, rfl⟩
  · by_cases hn : n.toInt = 0
    · right
      cases hp <;> simp [BootOk, bootAfter, bootStart, bootNext, hfed, hn]
    · left
      simp [BootEnd, bootAfter, bootStart, bootNext, hfed, hn]
  · by_cases hgo : n.toInt = 0 ∧ hp = true
    · right
      simp [BootOk, bootAfter, bootNext, hfed, hgo]
    · left
      simp [BootEnd, bootAfter, bootNext, hfed, hgo]
  · left
    simp [BootEnd, bootAfter, bootNext, hfed]
  · left
    simp [BootEnd, bootAfter, bootNext, hfed]

/-- A recorded answer leaves the sequencer in a legal position: at `finish`, or before the next call
(40_mp3_bootstrap.md R85, R86, R88). -/
theorem posAfter_ok {u : Mp3Unit} {run : Mp3Run} {b : Boot} (h : BootOk run b) (hport : u.idecPort = .idle)
    (fmt : Fmt) (n : Word) (hp : Bool) : DecOk u run fmt (posAfter run (bootAfter run b n hp) n) := by
  unfold posAfter
  by_cases hlen : run.lenA = 0
  · rw [if_pos (.inl hlen)]
    exact ⟨bootAfter_skip hlen h n hp, hport⟩
  · rcases bootAfter_fed hlen h n hp with ⟨hdone, hend⟩ | ⟨hgo, hboot⟩
    · rw [if_pos (.inr hdone)]
      exact ⟨hend, hport⟩
    · rw [if_neg (not_or.2 ⟨hlen, hgo⟩)]
      exact ⟨hboot, hport⟩

theorem Mp3Ok.call {s : State} (h : Mp3Ok s.mp3) {run : Mp3Run} {fmt : Fmt} {b : Boot}
    (running : s.mp3.run = some run) (hseq : run.seq = .decode fmt (.call b)) :
    Mp3Ok (mp3Goto (.decode fmt (.wait b)) (postIdec (decodeRequest fmt run b) s)).mp3 := by
  obtain ⟨args, boot, -⟩ := h.decode running hseq
  have hc := h.committed
  refine ⟨⟨hc.samples, hc.error, hc.needMore, hc.skipped, hc.walked⟩, ?_, fun r hr => ?_⟩
  · unfold Mp3RunOk
    simp only [mp3Goto_mp3_run, postIdec_mp3_run, running, Option.map_some]
    exact ⟨args, boot, .inl rfl⟩
  · rcases List.mem_cons.1 hr with e | hr
    · injection e with e
      exact e ▸ decodeRequest_ok b args
    · exact h.requests r hr

theorem Mp3Ok.takeAnswer {s : State} (h : Mp3Ok s.mp3) {run : Mp3Run} {fmt : Fmt} {b : Boot} (n : Word) (hp : Bool)
    (running : s.mp3.run = some run) (hseq : run.seq = .decode fmt (.wait b)) :
    Mp3Ok (takeAnswer fmt run b n hp s).mp3 := by
  obtain ⟨args, boot, -⟩ := h.decode running hseq
  have hc := h.committed
  refine ⟨⟨hc.samples, hc.error, hc.needMore, hc.skipped, hc.walked⟩, ?_, h.requests⟩
  unfold Mp3RunOk Machine.takeAnswer
  simp only [mp3Goto_mp3_run, running, Option.map_some]
  exact ⟨args, posAfter_ok boot rfl fmt n hp⟩

theorem Mp3Ok.finish {s : State} (h : Mp3Ok s.mp3) {run : Mp3Run} {fmt : Fmt} {b : Boot} {n : Word}
    (running : s.mp3.run = some run) (hseq : run.seq = .decode fmt (.finish b n)) :
    Mp3Ok (completeMp3 (decodeCommit run b n) s).mp3 := by
  obtain ⟨-, hboot, hport⟩ := h.decode running hseq
  refine ⟨⟨rfl, rfl, rfl, fun hskip => ?_, fun hwalk => ?_⟩, hport, h.requests⟩
  · exact (hboot.1 (of_decide_eq_true hskip)).1
  · exact .inl (hboot.2 (of_decide_eq_false hwalk)).1

/-! ### Every step -/

/-- Every step of an MP3 command keeps the MP3 unit's invariant. -/
theorem Mp3Exec.keeps_mp3Ok {s t : State} (h : Mp3Exec s t) (hm : Mp3Ok s.mp3) : Mp3Ok t.mp3 := by
  cases h with
  | nothing => exact hm
  | overruns => exact hm.withFlags _ _ true _ _ _ _ _
  | rejects cause => exact hm.withFlags _ true _ cause _ _ _ _
  | accepts seq turn idle fresh => exact hm.accept idle fresh
  | call run fmt b turn running seq => exact hm.call running seq
  | answer run fmt b n hp turn running seq => exact hm.takeAnswer n hp running seq
  | finish run fmt b n turn running seq => exact hm.finish running seq
  | resetPulse run turn running seq => exact hm.resetPulse running seq
  | resetEnd run turn running seq => exact hm.resetEnd running seq

/-- The answer of the inner decoder keeps it. -/
theorem Mp3Ok.idecAnswered {u : Mp3Unit} (h : Mp3Ok u) {r : IdecReq} (hport : u.idecPort = .pending r) (n : Word)
    (hp : Bool) : Mp3Ok { u with idecPort := .answered (n, hp), idecLog := .answer n hp :: u.idecLog } := by
  obtain ⟨run, fmt, b, running, hseq⟩ := h.of_idecPending hport
  obtain ⟨args, boot, -⟩ := h.decode running hseq
  have hc := h.committed
  refine ⟨⟨hc.samples, hc.error, hc.needMore, hc.skipped, hc.walked⟩, ?_, fun q hq => h.requests q (by simpa using hq)⟩
  unfold Mp3RunOk
  simp only [running, hseq]
  exact ⟨args, boot, .inr ⟨(n, hp), rfl⟩⟩

theorem innerDecoderMove_keeps_mp3Ok {s : State} (h : Mp3Ok s.mp3) : Mp3Ok (innerDecoderMove s).mp3 := by
  rcases innerDecoderMove_cases s with e | ⟨r, n, hp, ws, hport, e⟩ <;> rw [e]
  · exact h
  · exact h.idecAnswered hport n hp

end Sys2Proof.Machine
end

section
/-! SUPPORT. The invariant of the whole block: it holds after reset, and every step of every agent keeps it. -/

namespace Sys2Proof.Machine

theorem inv_iff {s : State} : s.Inv ↔ MemWf s ∧ VadOk s.vad ∧ Mp3Ok s.mp3 :=
  ⟨fun h => ⟨⟨h.mem, h.race, h.stale⟩, h.vad, h.mp3⟩,
    fun ⟨wf, vad, mp3⟩ => ⟨wf.mem, wf.race, wf.stale, vad, mp3⟩⟩

/-- The invariant is about the units and memory, not about the outside world. -/
theorem inv_congr {s t : State} (h : s.Inv) (hvad : t.vad = s.vad) (hmp3 : t.mp3 = s.mp3) (hwf : MemWf s → MemWf t) :
    t.Inv := by
  obtain ⟨wf, vad, mp3⟩ := inv_iff.1 h
  exact inv_iff.2 ⟨hwf wf, hvad ▸ vad, hmp3 ▸ mp3⟩

theorem takeTurn_inv {s : State} (h : s.Inv) : (takeTurn s).Inv :=
  inv_congr h (takeTurn_vad s) (takeTurn_mp3 s) fun wf =>
    ⟨by rw [takeTurn_mem]; exact wf.mem, by rw [takeTurn_race]; exact wf.race, by rw [takeTurn_stale]; exact wf.stale⟩

theorem VadExec.keeps_inv {s t : State} (h : VadExec s t) (hs : s.Inv) : t.Inv := by
  obtain ⟨hmp3, -, hmem, hrace, hstale⟩ := h.rest
  refine ⟨hmem ▸ hs.mem, ?_, hstale ▸ hs.stale, h.keeps_vadOk hs.vad, hmp3 ▸ hs.mp3⟩
  rcases hrace with e | e <;> rw [e]
  · exact hs.race
  · exact List.Pairwise.nil

theorem Mp3Exec.keeps_inv {s t : State} (h : Mp3Exec s t) (hs : s.Inv) : t.Inv := by
  obtain ⟨hvad, -, hmem, hrace, hstale⟩ := h.rest
  exact ⟨hmem ▸ hs.mem, hrace ▸ hs.race, hstale ▸ hs.stale, hvad ▸ hs.vad, h.keeps_mp3Ok hs.mp3⟩

theorem exec_keeps_inv {i : Instr} {s t : State} (h : exec i s = .next t) (hs : s.Inv) : t.Inv := by
  cases hu : i.unit with
  | vad => exact (vadExec_of_exec hu h).keeps_inv hs
  | mp3 => exact (mp3Exec_of_exec hu h).keeps_inv hs

theorem WindowEffect.keeps_inv {s t : State} (h : WindowEffect s t) (hs : s.Inv) : t.Inv := by
  obtain ⟨wf, vad, mp3⟩ := inv_iff.1 hs
  cases h with
  | nothing => exact hs
  | command i t run => exact exec_keeps_inv run hs
  | overruns u =>
    cases u with
    | vad => exact ⟨wf.mem, wf.race, wf.stale, vad.withFlags _ _ true _ _ _ _, mp3⟩
    | mp3 => exact ⟨wf.mem, wf.race, wf.stale, vad, mp3.withFlags _ _ true _ _ _ _ _⟩
  | rejects u cause =>
    cases u with
    | vad => exact ⟨wf.mem, wf.race, wf.stale, vad.withFlags _ true _ cause _ _ _, mp3⟩
    | mp3 => exact ⟨wf.mem, wf.race, wf.stale, vad, mp3.withFlags _ true _ cause _ _ _ _⟩
  | vadStatus w => exact ⟨wf.mem, wf.race, wf.stale, vad.withFlags _ _ _ _ _ _ _, mp3⟩
  | mp3Status w => exact ⟨wf.mem, wf.race, wf.stale, vad, mp3.withFlags _ _ _ _ _ _ _ _⟩
  | vadArgs a0 a1 a2 => exact ⟨wf.mem, wf.race, wf.stale, vad.withFlags _ _ _ _ a0 a1 a2, mp3⟩
  | mp3Args a0 a1 a2 a3 => exact ⟨wf.mem, wf.race, wf.stale, vad, mp3.withFlags _ _ _ _ a0 a1 a2 a3⟩
  | irqEnable e => exact ⟨wf.mem, wf.race, wf.stale, vad, mp3⟩

theorem popHostOp_inv {s : State} (h : s.Inv) : (popHostOp s).Inv := inv_congr h rfl rfl popHostOp_wf

theorem hardReset_inv {s : State} (h : s.Inv) : (hardReset s).Inv := by
  obtain ⟨wf, vad, mp3⟩ := inv_iff.1 h
  exact inv_iff.2 ⟨hardReset_wf wf, .reset _ vad.requests, .reset mp3.requests⟩

theorem HostEffect.keeps_inv {s t : State} (h : HostEffect s t) (hs : s.Inv) : t.Inv := by
  cases h with
  | window t effect => exact effect.keeps_inv (popHostOp_inv hs)
  | outside t hvad hmp3 hwf => exact inv_congr hs hvad hmp3 hwf
  | reset => exact hardReset_inv (popHostOp_inv hs)

/-- Host memory's answer touches the memory port and the counter of free words only. -/
theorem memoryMove_rest (s : State) :
    (memoryMove s).mp3 = s.mp3 ∧ (memoryMove s).mem = s.mem ∧ (memoryMove s).race = s.race
      ∧ (memoryMove s).stale = s.stale := by
  rcases memoryMove_cases s with e | ⟨a, word, s', hp, answer, e⟩ <;> rw [e]
  · exact ⟨rfl, rfl, rfl, rfl⟩
  · rcases memRead_cases answer with ⟨-, -, rfl⟩ | ⟨-, -, rfl⟩ | ⟨v, -, rfl, -⟩ <;> exact ⟨rfl, rfl, rfl, rfl⟩

theorem memoryMove_inv {s : State} (h : s.Inv) : (memoryMove s).Inv := by
  obtain ⟨hmp3, hmem, hrace, hstale⟩ := memoryMove_rest s
  exact ⟨hmem ▸ h.mem, hrace ▸ h.race, hstale ▸ h.stale, memoryMove_keeps_vadOk h.vad, hmp3 ▸ h.mp3⟩

theorem innerVadMove_rest (s : State) :
    (innerVadMove s).mp3 = s.mp3 ∧ (innerVadMove s).mem = s.mem ∧ (innerVadMove s).race = s.race
      ∧ (innerVadMove s).stale = s.stale := by
  rcases innerVadMove_cases s with e | ⟨r, code, -, e⟩ <;> rw [e] <;> exact ⟨rfl, rfl, rfl, rfl⟩

theorem innerVadMove_inv {s : State} (h : s.Inv) : (innerVadMove s).Inv := by
  obtain ⟨hmp3, hmem, hrace, hstale⟩ := innerVadMove_rest s
  exact ⟨hmem ▸ h.mem, hrace ▸ h.race, hstale ▸ h.stale, innerVadMove_keeps_vadOk h.vad, hmp3 ▸ h.mp3⟩

/-- The inner decoder's answer leaves the VAD unit as it is. -/
theorem innerDecoderMove_vad (s : State) : (innerDecoderMove s).vad = s.vad := by
  rcases innerDecoderMove_cases s with e | ⟨r, n, hp, ws, -, e⟩ <;> rw [e]
  exact (writeOutputs_rest r.fmt r.left r.right ws s).1

theorem innerDecoderMove_inv {s : State} (h : s.Inv) : (innerDecoderMove s).Inv := by
  obtain ⟨wf, vad, mp3⟩ := inv_iff.1 h
  exact inv_iff.2 ⟨innerDecoderMove_wf wf, innerDecoderMove_vad s ▸ vad, innerDecoderMove_keeps_mp3Ok mp3⟩

theorem AgentEffect.keeps_inv {s t : State} (h : AgentEffect s t) (hs : s.Inv) : t.Inv := by
  cases h with
  | host t turn effect => exact effect.keeps_inv hs
  | vadUnit t turn effect => exact effect.keeps_inv hs
  | mp3Unit t turn effect => exact effect.keeps_inv hs
  | hostMemory => exact memoryMove_inv hs
  | innerVad => exact innerVadMove_inv hs
  | innerDecoder => exact innerDecoderMove_inv hs

/-- Settles O54: a step is the turn taken and one agent's effect, and each effect keeps each part of the invariant. -/
theorem everyStepKeepsTheInvariant : Obligations.EveryStepKeepsTheInvariant := by
  unfold Obligations.EveryStepKeepsTheInvariant
  intro s t hs next
  exact (step_effect next).keeps_inv (takeTurn_inv hs)

/-- Settles O53: memory without a byte, and both units at their reset values. -/
theorem resetMeetsTheInvariant : Obligations.ResetMeetsTheInvariant := by
  unfold Obligations.ResetMeetsTheInvariant
  exact inv_iff.2 ⟨reset_memWf, .reset 0 (by simp), .reset (by simp)⟩

end Sys2Proof.Machine
end

section
/-! SUPPORT. When results, flags and BUSY change (10_state.md R44; 60_exceptions.md R132, R136), and what a running
command does not read (10_state.md R38). -/

namespace Sys2Proof.Machine

/-! ### Results and flags in a step of a command -/

/-- A pass of the loop ends the command or leaves its registers; the error flags it leaves in any case. -/
theorem iterate_registers {w : ProcWork} {s t : State} (h : iterate w s = .next t) :
    (t.vad.run = none
      ∨ (t.vad.rate = s.vad.rate ∧ t.vad.flen = s.vad.flen ∧ t.vad.off = s.vad.off ∧ t.vad.mode = s.vad.mode
        ∧ t.vad.hist = s.vad.hist ∧ t.vad.result = s.vad.result ∧ t.vad.rateReject = s.vad.rateReject
        ∧ t.vad.done = s.vad.done))
    ∧ t.vad.cmdErr = s.vad.cmdErr ∧ t.vad.errCause = s.vad.errCause ∧ t.vad.overrun = s.vad.overrun := by
  rcases iterate_cases h with ⟨-, rfl⟩ | ⟨-, -, rfl⟩ | ⟨-, -, -, -, rfl⟩
  · exact ⟨.inr ⟨rfl, rfl, rfl, rfl, rfl, rfl, rfl, rfl⟩, rfl, rfl, rfl⟩
  · exact ⟨.inl rfl, rfl, rfl, rfl⟩
  · exact ⟨.inr ⟨rfl, rfl, rfl, rfl, rfl, rfl, rfl, rfl⟩, rfl, rfl, rfl⟩

/-- A step of a VAD command that does not end a running one leaves the results and the session, and DONE but for its
acceptance. -/
theorem VadExec.keeps_results {s t : State} (h : VadExec s t)
    (goes : ¬(s.vad.run.isSome = true ∧ t.vad.run = none)) :
    t.vad.rate = s.vad.rate ∧ t.vad.flen = s.vad.flen ∧ t.vad.off = s.vad.off ∧ t.vad.mode = s.vad.mode
      ∧ t.vad.hist = s.vad.hist ∧ t.vad.result = s.vad.result ∧ t.vad.rateReject = s.vad.rateReject
      ∧ (t.vad.done = s.vad.done ∨ (t.vad.done = false ∧ s.env.turn = .host ∧ s.vad.run = none)) := by
  have ends : ∀ {run : VadRun}, s.vad.run = some run → ¬t.vad.run = none :=
    fun running ended => goes ⟨by rw [running]; rfl, ended⟩
  cases h with
  | accepts seq turn idle => exact ⟨rfl, rfl, rfl, rfl, rfl, rfl, rfl, .inr ⟨rfl, turn, idle⟩⟩
  | initEnd run turn running => exact absurd rfl (ends running)
  | setmodeEnd run turn running => exact absurd rfl (ends running)
  | rateFail run turn running => exact absurd rfl (ends running)
  | pass run w s' t turn running head next =>
    obtain ⟨rb, port, log, rfl⟩ := atHead_state head
    obtain ⟨ended | ⟨hrate, hflen, hoff, hmode, hhist, hresult, hreject, hdone⟩, -⟩ := iterate_registers next
    · exact absurd ended (ends running)
    · exact ⟨hrate, hflen, hoff, hmode, hhist, hresult, hreject, .inl hdone⟩
  | nothing | overruns | rejects | initPulse | verdict => exact ⟨rfl, rfl, rfl, rfl, rfl, rfl, rfl, .inl rfl⟩

/-- Only at the host's turn does a step of a VAD command change the error flags. -/
theorem VadExec.keeps_errors {s t : State} (h : VadExec s t) (turn : s.env.turn ≠ .host) :
    t.vad.cmdErr = s.vad.cmdErr ∧ t.vad.errCause = s.vad.errCause ∧ t.vad.overrun = s.vad.overrun := by
  cases h with
  | overruns host => exact absurd host turn
  | rejects cause host => exact absurd host turn
  | pass run w s' t unitTurn running head next =>
    obtain ⟨rb, port, log, rfl⟩ := atHead_state head
    exact (iterate_registers next).2
  | nothing | accepts | initPulse | initEnd | setmodeEnd | rateFail | verdict => exact ⟨rfl, rfl, rfl⟩

/-- A step of an MP3 command that does not end a running one leaves the results, and DONE but for its acceptance. -/
theorem Mp3Exec.keeps_results {s t : State} (h : Mp3Exec s t)
    (goes : ¬(s.mp3.run.isSome = true ∧ t.mp3.run = none)) :
    t.mp3.n = s.mp3.n ∧ t.mp3.samples = s.mp3.samples ∧ t.mp3.error = s.mp3.error
      ∧ t.mp3.needMore = s.mp3.needMore ∧ t.mp3.trace = s.mp3.trace
      ∧ (t.mp3.done = s.mp3.done ∨ (t.mp3.done = false ∧ s.env.turn = .host ∧ s.mp3.run = none)) := by
  have ends : ∀ {run : Mp3Run}, s.mp3.run = some run → ¬t.mp3.run = none :=
    fun running ended => goes ⟨by rw [running]; rfl, ended⟩
  cases h with
  | accepts seq turn idle => exact ⟨rfl, rfl, rfl, rfl, rfl, .inr ⟨rfl, turn, idle⟩⟩
  | finish run fmt b n turn running => exact absurd rfl (ends running)
  | resetEnd run turn running => exact absurd rfl (ends running)
  | nothing | overruns | rejects | call | answer | resetPulse => exact ⟨rfl, rfl, rfl, rfl, rfl, .inl rfl⟩

/-- Only at the host's turn does a step of an MP3 command change the error flags. -/
theorem Mp3Exec.keeps_errors {s t : State} (h : Mp3Exec s t) (turn : s.env.turn ≠ .host) :
    t.mp3.cmdErr = s.mp3.cmdErr ∧ t.mp3.errCause = s.mp3.errCause ∧ t.mp3.overrun = s.mp3.overrun := by
  cases h with
  | overruns host => exact absurd host turn
  | rejects cause host => exact absurd host turn
  | nothing | accepts | call | answer | finish | resetPulse | resetEnd => exact ⟨rfl, rfl, rfl⟩

/-- Settles O35: of the steps a command can take, only those that end it write results. -/
theorem registersChangeOnlyAtComplete : Obligations.RegistersChangeOnlyAtComplete := by
  unfold Obligations.RegistersChangeOnlyAtComplete
  exact ⟨fun i s t hi next => ⟨(vadExec_of_exec hi next).keeps_results, (vadExec_of_exec hi next).keeps_errors⟩,
    fun i s t hi next => ⟨(mp3Exec_of_exec hi next).keeps_results, (mp3Exec_of_exec hi next).keeps_errors⟩⟩

/-! ### DONE and BUSY in a step of any agent -/

/-- DONE is not set and BUSY does not end, between a unit's flags before and after a step. -/
def flagsKept (done busy done' busy' : Bool) : Prop := (done' = true → done = true) ∧ (busy = true → busy' = true)

/-- A unit's flags over its `complete` (60_exceptions.md R132). -/
def flagsComplete (busy done' busy' : Bool) : Prop := busy = true ∧ done' = true ∧ busy' = false

theorem flagsKept_refl (done busy : Bool) : flagsKept done busy done busy := ⟨id, id⟩

/-- Clearing DONE by a status write sets nothing. -/
theorem flagsKept_clear (c done busy : Bool) : flagsKept done busy (if c then false else done) busy := by
  refine ⟨fun h => ?_, id⟩
  cases c
  · exact h
  · exact (Bool.false_ne_true h).elim

theorem VadExec.flags {s t : State} (h : VadExec s t) :
    flagsKept s.vad.done (vadBusy s.vad) t.vad.done (vadBusy t.vad)
    ∨ (s.env.turn = .vadUnit ∧ flagsComplete (vadBusy s.vad) t.vad.done (vadBusy t.vad)) := by
  have busy : ∀ {run : VadRun}, s.vad.run = some run → vadBusy s.vad = true :=
    fun running => by unfold vadBusy; rw [running]; rfl
  cases h with
  | accepts seq turn idle => exact .inl ⟨fun h => (Bool.false_ne_true h).elim, fun _ => rfl⟩
  | initPulse run turn running => exact .inl ⟨id, fun _ => by simp [vadBusy, running]⟩
  | initEnd run turn running => exact .inr ⟨turn, busy running, rfl, rfl⟩
  | setmodeEnd run turn running => exact .inr ⟨turn, busy running, rfl, rfl⟩
  | rateFail run turn running => exact .inr ⟨turn, busy running, rfl, rfl⟩
  | pass run w s' t turn running head next =>
    obtain ⟨rb, port, log, rfl⟩ := atHead_state head
    rcases iterate_cases next with ⟨-, rfl⟩ | ⟨-, -, rfl⟩ | ⟨-, -, -, -, rfl⟩
    · exact .inl ⟨id, fun _ => by simp [vadBusy, running]⟩
    · exact .inr ⟨turn, busy running, rfl, rfl⟩
    · exact .inl ⟨id, fun _ => by simp [vadBusy, running]⟩
  | verdict run w code turn running => exact .inl ⟨id, fun _ => by simp [vadBusy, takeVerdict, running]⟩
  | nothing | overruns | rejects => exact .inl (flagsKept_refl _ _)

theorem Mp3Exec.flags {s t : State} (h : Mp3Exec s t) :
    flagsKept s.mp3.done (mp3Busy s.mp3) t.mp3.done (mp3Busy t.mp3)
    ∨ (s.env.turn = .mp3Unit ∧ flagsComplete (mp3Busy s.mp3) t.mp3.done (mp3Busy t.mp3)) := by
  have busy : ∀ {run : Mp3Run}, s.mp3.run = some run → mp3Busy s.mp3 = true :=
    fun running => by unfold mp3Busy; rw [running]; rfl
  cases h with
  | accepts seq turn idle => exact .inl ⟨fun h => (Bool.false_ne_true h).elim, fun _ => rfl⟩
  | call run fmt b turn running => exact .inl ⟨id, fun _ => by simp [mp3Busy, running]⟩
  | answer run fmt b n hp turn running => exact .inl ⟨id, fun _ => by simp [mp3Busy, takeAnswer, running]⟩
  | finish run fmt b n turn running => exact .inr ⟨turn, busy running, rfl, rfl⟩
  | resetPulse run turn running => exact .inl ⟨id, fun _ => by simp [mp3Busy, running]⟩
  | resetEnd run turn running => exact .inr ⟨turn, busy running, rfl, rfl⟩
  | nothing | overruns | rejects => exact .inl (flagsKept_refl _ _)

/-- What a step can do to a unit's flags: keep them in the sense of `flagsKept`; complete, at the turn of the unit's own
agent `a`; or reset them, at the host's turn. -/
def flagsStep (a : Agent) (s : State) (done busy done' busy' : Bool) : Prop :=
  flagsKept done busy done' busy'
  ∨ (s.env.turn = a ∧ flagsComplete busy done' busy')
  ∨ (s.env.turn = .host ∧ s.env.hostOps.head? = some .assertRst ∧ done' = false)

theorem flagsStep_refl (a : Agent) (s : State) (done busy : Bool) : flagsStep a s done busy done busy :=
  .inl (flagsKept_refl _ _)

theorem VadExec.flagsStep {s t : State} (h : VadExec s t) :
    flagsStep .vadUnit s s.vad.done (vadBusy s.vad) t.vad.done (vadBusy t.vad)
    ∧ Machine.flagsStep .mp3Unit s s.mp3.done (mp3Busy s.mp3) t.mp3.done (mp3Busy t.mp3) :=
  ⟨h.flags.imp_right .inl, by rw [h.rest.1]; exact flagsStep_refl _ _ _ _⟩

theorem Mp3Exec.flagsStep {s t : State} (h : Mp3Exec s t) :
    flagsStep .vadUnit s s.vad.done (vadBusy s.vad) t.vad.done (vadBusy t.vad)
    ∧ Machine.flagsStep .mp3Unit s s.mp3.done (mp3Busy s.mp3) t.mp3.done (mp3Busy t.mp3) :=
  ⟨by rw [h.rest.1]; exact flagsStep_refl _ _ _ _, h.flags.imp_right .inl⟩

/-- No write to the window sets DONE or ends BUSY: a command write is at the host's turn, where no command ends. -/
theorem WindowEffect.flagsKept {s t : State} (h : WindowEffect s t) (turn : s.env.turn = .host) :
    flagsKept s.vad.done (vadBusy s.vad) t.vad.done (vadBusy t.vad)
    ∧ Machine.flagsKept s.mp3.done (mp3Busy s.mp3) t.mp3.done (mp3Busy t.mp3) := by
  cases h with
  | command i t run =>
    cases hu : i.unit with
    | vad =>
      have effect := vadExec_of_exec hu run
      refine ⟨effect.flags.resolve_right fun ended => ?_, by rw [effect.rest.1]; exact flagsKept_refl _ _⟩
      exact Agent.noConfusion (turn.symm.trans ended.1)
    | mp3 =>
      have effect := mp3Exec_of_exec hu run
      refine ⟨by rw [effect.rest.1]; exact flagsKept_refl _ _, effect.flags.resolve_right fun ended => ?_⟩
      exact Agent.noConfusion (turn.symm.trans ended.1)
  | overruns u => cases u <;> exact ⟨flagsKept_refl _ _, flagsKept_refl _ _⟩
  | rejects u cause => cases u <;> exact ⟨flagsKept_refl _ _, flagsKept_refl _ _⟩
  | vadStatus w => exact ⟨flagsKept_clear _ _ _, flagsKept_refl _ _⟩
  | mp3Status w => exact ⟨flagsKept_refl _ _, flagsKept_clear _ _ _⟩
  | nothing | vadArgs | mp3Args | irqEnable => exact ⟨flagsKept_refl _ _, flagsKept_refl _ _⟩

theorem AgentEffect.flagsStep {s t : State} (h : AgentEffect s t) :
    flagsStep .vadUnit s s.vad.done (vadBusy s.vad) t.vad.done (vadBusy t.vad)
    ∧ Machine.flagsStep .mp3Unit s s.mp3.done (mp3Busy s.mp3) t.mp3.done (mp3Busy t.mp3) := by
  cases h with
  | host t turn effect =>
    cases effect with
    | window t effect =>
      obtain ⟨hvad, hmp3⟩ := effect.flagsKept turn
      exact ⟨.inl hvad, .inl hmp3⟩
    | outside t hvad hmp3 => rw [hvad, hmp3]; exact ⟨flagsStep_refl _ _ _ _, flagsStep_refl _ _ _ _⟩
    | reset op => exact ⟨.inr (.inr ⟨turn, op, rfl⟩), .inr (.inr ⟨turn, op, rfl⟩)⟩
  | vadUnit t turn effect => exact effect.flagsStep
  | mp3Unit t turn effect => exact effect.flagsStep
  | hostMemory =>
    rw [(memoryMove_rest s).1]
    refine ⟨?_, flagsStep_refl _ _ _ _⟩
    rcases memoryMove_cases s with e | ⟨a, word, s', hp, answer, e⟩ <;> rw [e]
    · exact flagsStep_refl _ _ _ _
    · rcases memRead_cases answer with ⟨-, -, rfl⟩ | ⟨-, -, rfl⟩ | ⟨v, -, rfl, -⟩ <;> exact flagsStep_refl _ _ _ _
  | innerVad =>
    rw [(innerVadMove_rest s).1]
    refine ⟨?_, flagsStep_refl _ _ _ _⟩
    rcases innerVadMove_cases s with e | ⟨r, code, -, e⟩ <;> rw [e] <;> exact flagsStep_refl _ _ _ _
  | innerDecoder =>
    rw [innerDecoderMove_vad]
    refine ⟨flagsStep_refl _ _ _ _, ?_⟩
    rcases innerDecoderMove_cases s with e | ⟨r, n, hp, ws, -, e⟩ <;> rw [e] <;> exact flagsStep_refl _ _ _ _

/-- Where DONE rises, the unit's own agent has completed its command. -/
theorem flagsStep_done {a : Agent} {s : State} {done busy done' busy' : Bool} (h : flagsStep a s done busy done' busy')
    (before : done = false) (after : done' = true) : s.env.turn = a ∧ busy = true ∧ busy' = false := by
  rcases h with ⟨kept, -⟩ | ⟨turn, hbusy, -, hidle⟩ | ⟨-, -, cleared⟩
  · exact absurd (before.symm.trans (kept after)) Bool.false_ne_true
  · exact ⟨turn, hbusy, hidle⟩
  · exact absurd (cleared.symm.trans after) Bool.false_ne_true

/-- Where BUSY ends, the unit's own agent has completed its command, or the host has reset the block. -/
theorem flagsStep_busy {a : Agent} {s : State} {done busy done' busy' : Bool} (h : flagsStep a s done busy done' busy')
    (before : busy = true) (after : busy' = false) :
    (s.env.turn = a ∧ done' = true) ∨ (s.env.turn = .host ∧ s.env.hostOps.head? = some .assertRst) := by
  rcases h with ⟨-, kept⟩ | ⟨turn, -, hdone, -⟩ | ⟨turn, op, -⟩
  · exact absurd (after.symm.trans (kept before)) Bool.false_ne_true
  · exact .inl ⟨turn, hdone⟩
  · exact .inr ⟨turn, op⟩

/-- Settles O59: of everything an agent can do, only `complete` sets DONE, and only it and the reset end BUSY. -/
theorem onlyCompleteSetsDone : Obligations.OnlyCompleteSetsDone := by
  unfold Obligations.OnlyCompleteSetsDone
  intro s t next
  obtain ⟨hvad, hmp3⟩ := (step_effect next).flagsStep
  rw [takeTurn_vad] at hvad
  rw [takeTurn_mp3] at hmp3
  have hops := takeTurn_env_hostOps s
  exact ⟨flagsStep_done hvad, flagsStep_done hmp3, by simpa only [hops] using flagsStep_busy hvad,
    by simpa only [hops] using flagsStep_busy hmp3⟩

/-! ### A running command reads its latched arguments only -/

theorem iterate_withVadArgs (a0 a1 a2 : Word) (w : ProcWork) (s : State) :
    iterate w (withVadArgs a0 a1 a2 s) = mapNext (withVadArgs a0 a1 a2) (iterate w s) := by
  unfold iterate
  split_ifs <;> rfl

theorem takeSample_withVadArgs (a0 a1 a2 : Word) (w : ProcWork) (word : Word) (s : State) :
    takeSample w word (withVadArgs a0 a1 a2 s) = mapNext (withVadArgs a0 a1 a2) (takeSample w word s) := by
  unfold takeSample
  split
  · exact iterate_withVadArgs a0 a1 a2 _ (fillSample w word s)
  · rfl

theorem runVadProcess_withVadArgs (a0 a1 a2 : Word) (s : State) :
    runVadProcess (withVadArgs a0 a1 a2 s) = mapNext (withVadArgs a0 a1 a2) (runVadProcess s) := by
  have hrun : (withVadArgs a0 a1 a2 s).vad.run = s.vad.run := rfl
  have hcheck : ∀ rateA, rateCheck rateA (withVadArgs a0 a1 a2 s).vad = rateCheck rateA s.vad := fun _ => rfl
  have hmem : (withVadArgs a0 a1 a2 s).vad.memPort = s.vad.memPort := rfl
  have hivad : (withVadArgs a0 a1 a2 s).vad.ivadPort = s.vad.ivadPort := rfl
  unfold runVadProcess
  rw [hrun]
  cases s.vad.run with
  | none => rfl
  | some run =>
    cases hseq : run.seq with
    | init => simp only [hseq]; rfl
    | setmode => simp only [hseq]; rfl
    | process pos =>
      cases pos with
      | start =>
        simp only [hseq, hcheck]
        cases rateCheck run.rateA s.vad with
        | none => rfl
        | some checked => exact iterate_withVadArgs a0 a1 a2 _ s
      | loop w => simp only [hseq]; exact iterate_withVadArgs a0 a1 a2 w s
      | memWait w =>
        simp only [hseq, hmem]
        cases s.vad.memPort with
        | answered word => exact takeSample_withVadArgs a0 a1 a2 w word s
        | idle => rfl
        | pending a => rfl
      | ivadWait w =>
        simp only [hseq, hivad]
        cases s.vad.ivadPort with
        | answered code => rfl
        | idle => rfl
        | pending r => rfl

theorem runVadInit_withVadArgs (a0 a1 a2 : Word) (s : State) :
    runVadInit (withVadArgs a0 a1 a2 s) = withVadArgs a0 a1 a2 (runVadInit s) := by
  have hrun : (withVadArgs a0 a1 a2 s).vad.run = s.vad.run := rfl
  unfold runVadInit
  rw [hrun]
  split <;> rfl

theorem runVadSetmode_withVadArgs (a0 a1 a2 : Word) (s : State) :
    runVadSetmode (withVadArgs a0 a1 a2 s) = withVadArgs a0 a1 a2 (runVadSetmode s) := by
  have hrun : (withVadArgs a0 a1 a2 s).vad.run = s.vad.run := rfl
  unfold runVadSetmode
  rw [hrun]
  split <;> rfl

theorem runDecode_withMp3Args (fmt : Fmt) (a0 a1 a2 a3 : Word) (s : State) :
    runDecode fmt (withMp3Args a0 a1 a2 a3 s) = withMp3Args a0 a1 a2 a3 (runDecode fmt s) := by
  have hrun : (withMp3Args a0 a1 a2 a3 s).mp3.run = s.mp3.run := rfl
  have hport : (withMp3Args a0 a1 a2 a3 s).mp3.idecPort = s.mp3.idecPort := rfl
  unfold runDecode
  rw [hrun]
  cases s.mp3.run with
  | none => rfl
  | some run =>
    cases hseq : run.seq with
    | reset => simp only [hseq]
    | decode f pos =>
      simp only [hseq, hport]
      split
      · cases pos with
        | call b => rfl
        | wait b =>
          cases s.mp3.idecPort with
          | answered a => rfl
          | idle => rfl
          | pending r => rfl
        | finish b n => rfl
      · rfl

theorem runMp3Reset_withMp3Args (a0 a1 a2 a3 : Word) (s : State) :
    runMp3Reset (withMp3Args a0 a1 a2 a3 s) = withMp3Args a0 a1 a2 a3 (runMp3Reset s) := by
  have hrun : (withMp3Args a0 a1 a2 a3 s).mp3.run = s.mp3.run := rfl
  unfold runMp3Reset
  rw [hrun]
  split <;> rfl

/-- At its unit's turn a VAD command takes its next step. -/
theorem exec_vadUnit {s : State} (turn : s.env.turn = .vadUnit) :
    exec .vadInit s = .next (runVadInit s) ∧ exec .vadSetmode s = .next (runVadSetmode s)
    ∧ exec .vadProcess s = runVadProcess s := by
  simp only [exec, execVadInit, execVadSetmode, execVadProcess, turn, and_self]

/-- At its unit's turn an MP3 command takes its next step. -/
theorem exec_mp3Unit {s : State} (turn : s.env.turn = .mp3Unit) :
    exec .mp3DecodeS16 s = .next (runDecode .s16 s) ∧ exec .mp3DecodeF32 s = .next (runDecode .f32 s)
    ∧ exec .mp3Reset s = .next (runMp3Reset s) := by
  simp only [exec, execMp3DecodeS16, execMp3DecodeF32, execMp3Reset, turn, and_self]

/-- Settles O36: at a unit's turn each command's step reads the run, the session and the ports, and no argument
register. -/
theorem runningCommandIgnoresTheArgumentRegisters : Obligations.RunningCommandIgnoresTheArgumentRegisters := by
  unfold Obligations.RunningCommandIgnoresTheArgumentRegisters
  constructor
  · intro i s a0 a1 a2 hi turn
    obtain ⟨hinit, hset, hprocess⟩ := exec_vadUnit turn
    obtain ⟨hinit', hset', hprocess'⟩ := exec_vadUnit (s := withVadArgs a0 a1 a2 s) turn
    cases i with
    | vadInit => rw [hinit, hinit', runVadInit_withVadArgs]; rfl
    | vadSetmode => rw [hset, hset', runVadSetmode_withVadArgs]; rfl
    | vadProcess => rw [hprocess, hprocess', runVadProcess_withVadArgs]
    | mp3DecodeS16 | mp3DecodeF32 | mp3Reset => cases hi
  · intro i s a0 a1 a2 a3 hi turn
    obtain ⟨hs16, hf32, hreset⟩ := exec_mp3Unit turn
    obtain ⟨hs16', hf32', hreset'⟩ := exec_mp3Unit (s := withMp3Args a0 a1 a2 a3 s) turn
    cases i with
    | mp3DecodeS16 => rw [hs16, hs16', runDecode_withMp3Args]; rfl
    | mp3DecodeF32 => rw [hf32, hf32', runDecode_withMp3Args]; rfl
    | mp3Reset => rw [hreset, hreset', runMp3Reset_withMp3Args]; rfl
    | vadInit | vadSetmode | vadProcess => cases hi

end Sys2Proof.Machine
end

section
/-! SUPPORT. The register map and the register window (10_state.md R11 to R14, R16, R17, R28, R29, R33 to R36), and the
turn of a unit. -/

namespace Sys2Proof.Machine

/-! ### The register map -/

/-- Each row of the table holds a register of the map at that register's own offset. -/
theorem regTable_rows : ∀ e ∈ regTable, e.2.wellFormed = true ∧ e.2.offset = e.1 ∧ e.1 < 0x800 := by decide

theorem regTable_of_lookup {offset : Nat} {r : Reg} (h : regTable.lookup offset = some r) :
    r.wellFormed = true ∧ r.offset = offset := by
  obtain ⟨before, after, table, -⟩ := List.lookup_eq_some_iff.1 h
  obtain ⟨wf, hoffset, -⟩ := regTable_rows (offset, r) (by rw [table]; simp)
  exact ⟨wf, hoffset⟩

theorem regAt_rbWin {k : Nat} (hk : k < 720) : regAt (0x800 + 4 * k) = some (.rbWin k) := by
  unfold regAt
  rw [if_pos (by omega), if_pos (by omega)]
  congr 2
  omega

/-- A register of the map stands at its offset. -/
theorem regAt_offset {r : Reg} (h : r.wellFormed = true) : regAt r.offset = some r := by
  cases r with
  | rbWin k => exact regAt_rbWin (of_decide_eq_true h)
  | vadCmd | vadStatus | vadArg0 | vadArg1 | vadArg2 | vadResult | vadRate | vadFlen | vadOff | vadMode
  | vadHistErr | vadHistSil | vadHistVoi | vadHistNoi | mp3Cmd | mp3Status | mp3Arg0 | mp3Arg1 | mp3Arg2 | mp3Arg3
  | mp3N | mp3Samples | mp3Trace | irqEnable | irqStatus => rfl

theorem regAt_eq_some_iff {offset : Nat} {r : Reg} :
    regAt offset = some r ↔ r.wellFormed = true ∧ r.offset = offset := by
  constructor
  · intro h
    unfold regAt at h
    split at h
    · split at h
      · injection h with h
        subst h
        exact ⟨decide_eq_true (by omega), by simp only [Reg.offset]; omega⟩
      · cases h
    · exact regTable_of_lookup h
  · rintro ⟨wf, rfl⟩
    exact regAt_offset wf

/-- Settles O4: the table's rows and the RB_WIN words give each register of the map its own offset, and no other. -/
theorem registerMapIsExact : Obligations.RegisterMapIsExact := by
  unfold Obligations.RegisterMapIsExact
  exact fun _ _ => regAt_eq_some_iff

/-- Every register is word aligned (10_state.md R12). -/
theorem Reg.offset_aligned (r : Reg) : r.offset % 4 = 0 := by
  cases r with
  | rbWin k => simp only [Reg.offset]; omega
  | vadCmd | vadStatus | vadArg0 | vadArg1 | vadArg2 | vadResult | vadRate | vadFlen | vadOff | vadMode
  | vadHistErr | vadHistSil | vadHistVoi | vadHistNoi | mp3Cmd | mp3Status | mp3Arg0 | mp3Arg1 | mp3Arg2 | mp3Arg3
  | mp3N | mp3Samples | mp3Trace | irqEnable | irqStatus => rfl

/-! ### Accesses to the window -/

theorem alignedWord_iff {offset : BitVec 13} {width : Width} :
    alignedWord offset width = true ↔ width = .w32 ∧ offset.toNat % 4 = 0 := by
  simp [alignedWord]

/-- An access that R12 does not define, or at an offset without a register, reads 0 and writes nothing. -/
theorem window_undefined {offset : BitVec 13} {width : Width}
    (h : alignedWord offset width = false ∨ regAt offset.toNat = none) (w : Word) (s : State) :
    windowValue offset width s = 0 ∧ windowWrite offset width w s = .next s := by
  unfold windowValue windowWrite
  rcases h with h | h
  · rw [h]; exact ⟨rfl, rfl⟩
  · rw [h]; exact ⟨ite_self _, ite_self _⟩

/-- An aligned 32-bit access at a register's offset is an access to that register. -/
theorem window_defined {r : Reg} {offset : BitVec 13} (wf : r.wellFormed = true) (hoffset : r.offset = offset.toNat)
    (s : State) :
    windowValue offset .w32 s = regValue r s ∧ ∀ w, windowWrite offset .w32 w s = regWrite r w s := by
  have haligned : alignedWord offset .w32 = true := alignedWord_iff.2 ⟨rfl, hoffset ▸ Reg.offset_aligned r⟩
  have hreg : regAt offset.toNat = some r := regAt_eq_some_iff.2 ⟨wf, hoffset⟩
  unfold windowValue windowWrite
  rw [haligned, hreg]
  exact ⟨rfl, fun _ => rfl⟩

/-- Settles O41: such an access is no aligned word, or finds no register in the map. -/
theorem undefinedAccessesReadZeroAndWriteNothing : Obligations.UndefinedAccessesReadZeroAndWriteNothing := by
  unfold Obligations.UndefinedAccessesReadZeroAndWriteNothing
  intro offset width w s h
  apply window_undefined
  rcases h with hwidth | hoffset | hnone
  · exact .inl (Bool.eq_false_iff.2 fun h => hwidth (alignedWord_iff.1 h).1)
  · exact .inl (Bool.eq_false_iff.2 fun h => hoffset (alignedWord_iff.1 h).2)
  · refine .inr (Option.eq_none_iff_forall_ne_some.2 fun r h => ?_)
    obtain ⟨wf, hoffset⟩ := regAt_eq_some_iff.1 h
    exact hnone r wf hoffset

/-- Settles O42: a read only returns its value and uses up a free word. -/
theorem readsChangeNothingOfTheBlock : Obligations.ReadsChangeNothingOfTheBlock := by
  unfold Obligations.ReadsChangeNothingOfTheBlock hostRead
  intro offset width s
  exact ⟨pushResult_vad _ s, pushResult_mp3 _ s, pushResult_irqEnable _ s, pushResult_mem _ s, pushResult_race _ s,
    pushResult_stale _ s, pushResult_env_results _ s⟩

/-! ### The status words -/

/-- A flag cleared where the written bit is 1 (10_state.md R17, R29). -/
theorem clear_eq_and_not (c b : Bool) : (if c = true then false else b) = (b && !c) := by
  cases c <;> simp

/-- Settles O38: each W1C field is cleared by its own bit. -/
theorem vadStatusWriteClearsOnlyWrittenOnes : Obligations.VadStatusWriteClearsOnlyWrittenOnes := by
  unfold Obligations.VadStatusWriteClearsOnlyWrittenOnes
  intro w s
  simp only [regWrite, vadStatusWrite, clear_eq_and_not]

/-- Settles O39: each W1C field is cleared by its own bit. -/
theorem mp3StatusWriteClearsOnlyWrittenOnes : Obligations.Mp3StatusWriteClearsOnlyWrittenOnes := by
  unfold Obligations.Mp3StatusWriteClearsOnlyWrittenOnes
  intro w s
  simp only [regWrite, mp3StatusWrite, clear_eq_and_not]

/-- A bit of an appended word above its low part. -/
theorem getLsbD_append_above {n m : Nat} (x : BitVec n) (y : BitVec m) (i : Nat) :
    (x ++ y).getLsbD (i + m) = x.getLsbD i := by
  rw [BitVec.getLsbD_append, if_neg (by omega), Nat.add_sub_cancel]

/-- Bit 0 of a word with one flag appended. -/
theorem getLsbD_append_flag {n : Nat} (x : BitVec n) (b : Bool) : (x ++ BitVec.ofBool b).getLsbD 0 = b := by
  rw [BitVec.getLsbD_append, if_pos Nat.one_pos, BitVec.getLsbD_ofBool]
  simp

/-- A field of an appended word above its low part. -/
theorem extractLsb'_append_above {n m : Nat} (x : BitVec n) (y : BitVec m) (i len : Nat) :
    (x ++ y).extractLsb' (i + m) len = x.extractLsb' i len := by
  rw [BitVec.extractLsb'_append_eq_of_le (Nat.le_add_left m i), Nat.add_sub_cancel]

/-- The four flags of a status word's low byte, and above them the cause code. -/
theorem statusLow_fields (cause : Cause) (overrun cmdErr done busy : Bool) :
    (statusLow cause overrun cmdErr done busy).getLsbD 0 = busy
    ∧ (statusLow cause overrun cmdErr done busy).getLsbD 1 = done
    ∧ (statusLow cause overrun cmdErr done busy).getLsbD 2 = cmdErr
    ∧ (statusLow cause overrun cmdErr done busy).getLsbD 3 = overrun
    ∧ (statusLow cause overrun cmdErr done busy).extractLsb' 4 4 = causeCode cause := by
  unfold statusLow
  simp only [getLsbD_append_flag, getLsbD_append_above (m := 1), extractLsb'_append_above (m := 1),
    BitVec.extractLsb'_eq_self, and_self]

/-- The low byte of a status word, whatever flags stand above it. -/
theorem statusWord_low {n : Nat} (high : BitVec n) (cause : Cause) (overrun cmdErr done busy : Bool) :
    (high ++ statusLow cause overrun cmdErr done busy).getLsbD 0 = busy
    ∧ (high ++ statusLow cause overrun cmdErr done busy).getLsbD 1 = done
    ∧ (high ++ statusLow cause overrun cmdErr done busy).getLsbD 2 = cmdErr
    ∧ (high ++ statusLow cause overrun cmdErr done busy).getLsbD 3 = overrun
    ∧ (high ++ statusLow cause overrun cmdErr done busy).extractLsb' 4 4 = causeCode cause := by
  have hbit : ∀ i < 8, (high ++ statusLow cause overrun cmdErr done busy).getLsbD i
      = (statusLow cause overrun cmdErr done busy).getLsbD i :=
    fun i hi => by rw [BitVec.getLsbD_append, if_pos hi]
  rw [hbit 0 (by decide), hbit 1 (by decide), hbit 2 (by decide), hbit 3 (by decide),
    BitVec.extractLsb'_append_eq_of_add_le (by decide)]
  exact statusLow_fields cause overrun cmdErr done busy

/-- Settles O40: the low byte is common to both words; each word's own flags and its zeros stand above it. -/
theorem statusWordsHoldTheirFields : Obligations.StatusWordsHoldTheirFields := by
  unfold Obligations.StatusWordsHoldTheirFields
  constructor
  · intro u
    unfold vadStatusWord
    obtain ⟨busy, done, cmdErr, overrun, cause⟩ :=
      statusWord_low ((0 : BitVec 23) ++ BitVec.ofBool u.rateReject) u.errCause u.overrun u.cmdErr u.done (vadBusy u)
    refine ⟨busy, done, cmdErr, overrun, cause.trans ?_, ?_, ?_⟩
    · cases u.errCause <;> rfl
    · simp only [getLsbD_append_above (m := 8), getLsbD_append_flag]
    · simp only [extractLsb'_append_above (m := 8), extractLsb'_append_above (m := 1), BitVec.extractLsb'_eq_self]
  · intro u
    unfold mp3StatusWord
    obtain ⟨busy, done, cmdErr, overrun, cause⟩ :=
      statusWord_low ((0 : BitVec 22) ++ BitVec.ofBool u.needMore ++ BitVec.ofBool u.error) u.errCause u.overrun
        u.cmdErr u.done (mp3Busy u)
    refine ⟨busy, done, cmdErr, overrun, cause.trans ?_, ?_, ?_, ?_⟩
    · cases u.errCause <;> rfl
    · simp only [getLsbD_append_above (m := 8), getLsbD_append_flag]
    · simp only [getLsbD_append_above (m := 8), getLsbD_append_above (m := 1), getLsbD_append_flag]
    · simp only [extractLsb'_append_above (m := 8), extractLsb'_append_above (m := 1), BitVec.extractLsb'_eq_self]

/-- Settles O45: the fields below a field are stripped off until it stands lowest. -/
theorem traceWordHoldsItsFields : Obligations.TraceWordHoldsItsFields := by
  unfold Obligations.TraceWordHoldsItsFields traceWord
  intro t
  refine ⟨BitVec.extractLsb'_append_eq_right, ?skip, ?hp1, ?hp2, ?hp3, ?reservedLow, ?reservedHigh, ?endState⟩
  case skip => simp only [getLsbD_append_above (m := 2), getLsbD_append_flag]
  case hp1 => simp only [getLsbD_append_above (m := 2), getLsbD_append_above (m := 1), getLsbD_append_flag]
  case hp2 => simp only [getLsbD_append_above (m := 2), getLsbD_append_above (m := 1), getLsbD_append_flag]
  case hp3 => simp only [getLsbD_append_above (m := 2), getLsbD_append_above (m := 1), getLsbD_append_flag]
  case reservedLow =>
    simp only [extractLsb'_append_above (m := 2), extractLsb'_append_above (m := 1)]
    exact BitVec.extractLsb'_append_eq_right
  case reservedHigh =>
    simp only [extractLsb'_append_above (m := 2), extractLsb'_append_above (m := 1), BitVec.extractLsb'_eq_self]
  case endState =>
    simp only [extractLsb'_append_above (m := 2), extractLsb'_append_above (m := 1)]
    refine BitVec.extractLsb'_append_eq_right.trans ?_
    cases t.endState <;> rfl

/-! ### The interrupt registers -/

/-- The bits of a two-bit field read as a word, zeros above them. -/
theorem pairWord_bits (x : BitVec 2) :
    (x.setWidth 32).getLsbD 0 = x.getLsbD 0 ∧ (x.setWidth 32).getLsbD 1 = x.getLsbD 1
    ∧ (x.setWidth 32).extractLsb' 2 30 = 0 := by
  revert x
  decide

/-- The value of a two-bit field read as a word. -/
theorem pairWord_toNat (x : BitVec 2) : (x.setWidth 32).toNat = x.toNat :=
  BitVec.toNat_setWidth_of_le (by decide)

/-- The value of a two-bit field by its bits. -/
theorem toNat_pair (x : BitVec 2) :
    x.toNat = (if x.getLsbD 0 then 1 else 0) + (if x.getLsbD 1 then 2 else 0) := by
  revert x
  decide

theorem irqStatus_bits (s : State) :
    (irqStatus s).getLsbD 0 = (s.vad.done && s.irqEnable.getLsbD 0)
    ∧ (irqStatus s).getLsbD 1 = (s.mp3.done && s.irqEnable.getLsbD 1) := by
  unfold irqStatus
  rw [BitVec.getLsbD_and, BitVec.getLsbD_and]
  exact ⟨congrArg (· && _) (getLsbD_append_flag _ _),
    congrArg (· && _) ((getLsbD_append_above _ _ 0).trans (BitVec.getLsbD_ofBool _ _))⟩

/-- Settles O44: the two bits of IRQ_STATUS, and a line that is their word's being not 0. -/
theorem irqIsDoneAndEnabled : Obligations.IrqIsDoneAndEnabled := by
  unfold Obligations.IrqIsDoneAndEnabled
  intro s
  obtain ⟨low, high, zeros⟩ := pairWord_bits (irqStatus s)
  obtain ⟨hvad, hmp3⟩ := irqStatus_bits s
  refine ⟨low.trans hvad, high.trans hmp3, zeros, ?_, by decide⟩
  change decide (irqStatus s ≠ 0) = true ↔ (irqStatus s).setWidth 32 ≠ 0
  rw [decide_eq_true_iff, ← BitVec.toNat_ne_iff_ne, ← BitVec.toNat_ne_iff_ne, pairWord_toNat]
  rfl

/-- Settles O43: the arms of `regWrite`, and the two low bits that IRQ_ENABLE keeps. -/
theorem onlyReadWriteRegistersTakeAWrite : Obligations.OnlyReadWriteRegistersTakeAWrite := by
  unfold Obligations.OnlyReadWriteRegistersTakeAWrite
  intro w s
  obtain ⟨-, -, zeros⟩ := pairWord_bits (w.setWidth 2)
  refine ⟨rfl, rfl, rfl, rfl, rfl, rfl, rfl, ⟨_, rfl, rfl, ?_, ?_, zeros⟩, ?_, fun _ => rfl, rfl, rfl⟩
  · rw [BitVec.getLsbD_setWidth]; rfl
  · rw [BitVec.getLsbD_setWidth]; rfl
  · simp [regWrite]

/-! ### The ring window -/

/-- A word of RB_WIN while the VAD unit is idle (10_state.md R36). -/
theorem regValue_rbWin {s : State} (idle : vadBusy s.vad = false) (k : Nat) :
    regValue (.rbWin k) s = ringRead s.vad (2 * k + 1) ++ ringRead s.vad (2 * k) := by
  simp only [regValue, idle, Bool.false_eq_true, if_false, ringWord]

/-- Settles O46: the map's RB_WIN words, and the halves of an appended word. -/
theorem ringWindowShowsTwoElements : Obligations.RingWindowShowsTwoElements := by
  unfold Obligations.RingWindowShowsTwoElements
  intro s k hk idle
  rw [regValue_rbWin idle]
  exact ⟨regAt_rbWin hk, BitVec.extractLsb'_append_eq_right, BitVec.extractLsb'_append_eq_left⟩

/-- Settles O52: each register but RB_WIN reads a field that is 0 at reset. -/
theorem resetStateReadsZero : Obligations.ResetStateReadsZero := by
  unfold Obligations.ResetStateReadsZero
  refine ⟨fun r _ notRing => ?_, by decide, rfl, rfl⟩
  cases r with
  | rbWin k => exact absurd rfl (notRing k)
  | vadCmd | vadStatus | vadArg0 | vadArg1 | vadArg2 | vadResult | vadRate | vadFlen | vadOff | vadMode
  | vadHistErr | vadHistSil | vadHistVoi | vadHistNoi | mp3Cmd | mp3Status | mp3Arg0 | mp3Arg1 | mp3Arg2 | mp3Arg3
  | mp3N | mp3Samples | mp3Trace | irqEnable | irqStatus => rfl

/-! ### Register by register -/

/-- What an aligned 32-bit read at a register's offset returns. -/
theorem windowValue_reg {offset : BitVec 13} (r : Reg) (s : State) (wf : r.wellFormed = true)
    (hoffset : r.offset = offset.toNat) : windowValue offset .w32 s = regValue r s :=
  (window_defined wf hoffset s).1

theorem irqStatus_toNat (s : State) :
    (regValue .irqStatus s).toNat = (if s.vad.done && s.irqEnable.getLsbD 0 then 1 else 0)
      + (if s.mp3.done && s.irqEnable.getLsbD 1 then 2 else 0) := by
  obtain ⟨hvad, hmp3⟩ := irqStatus_bits s
  rw [← hvad, ← hmp3, ← toNat_pair]
  exact pairWord_toNat (irqStatus s)

/-- The offset of an RB_WIN word fits the window's 13 bits. -/
theorem rbWin_offset {k : Nat} (hk : k < 720) : (Reg.rbWin k).offset = (BitVec.ofNat 13 (0x800 + 4 * k)).toNat := by
  rw [BitVec.toNat_ofNat]
  have hfits : 0x800 + 4 * k < 2 ^ 13 := by omega
  exact (Nat.mod_eq_of_lt hfits).symm

/-- Settles O60: each offset reaches its own register. -/
theorem listedAccessesReachTheirRegisters : Obligations.ListedAccessesReachTheirRegisters := by
  unfold Obligations.ListedAccessesReachTheirRegisters
  refine ⟨fun s => ⟨windowValue_reg .vadCmd s rfl rfl, windowValue_reg .vadStatus s rfl rfl,
    windowValue_reg .vadArg0 s rfl rfl, windowValue_reg .vadArg1 s rfl rfl, windowValue_reg .vadArg2 s rfl rfl,
    windowValue_reg .vadResult s rfl rfl, windowValue_reg .vadRate s rfl rfl, windowValue_reg .vadFlen s rfl rfl,
    windowValue_reg .vadOff s rfl rfl, ?mode, windowValue_reg .vadHistErr s rfl rfl,
    windowValue_reg .vadHistSil s rfl rfl, windowValue_reg .vadHistVoi s rfl rfl,
    windowValue_reg .vadHistNoi s rfl rfl, windowValue_reg .mp3Cmd s rfl rfl, windowValue_reg .mp3Status s rfl rfl,
    windowValue_reg .mp3Arg0 s rfl rfl, windowValue_reg .mp3Arg1 s rfl rfl, windowValue_reg .mp3Arg2 s rfl rfl,
    windowValue_reg .mp3Arg3 s rfl rfl, windowValue_reg .mp3N s rfl rfl, windowValue_reg .mp3Samples s rfl rfl,
    windowValue_reg .mp3Trace s rfl rfl, ?irqEnable, ?irqStatus, fun k hk idle => ?ring⟩,
    fun offset r w s wf hoffset => (window_defined wf hoffset s).2 w⟩
  case mode =>
    rw [windowValue_reg .vadMode s rfl rfl]
    exact pairWord_toNat s.vad.mode
  case irqEnable =>
    rw [windowValue_reg .irqEnable s rfl rfl]
    exact pairWord_toNat s.irqEnable
  case irqStatus =>
    rw [windowValue_reg .irqStatus s rfl rfl]
    exact irqStatus_toNat s
  case ring =>
    rw [windowValue_reg (.rbWin k) s (decide_eq_true hk) (rbWin_offset hk)]
    exact regValue_rbWin idle k

/-! ### The turn of a unit -/

/-- Settles O6: at a unit's turn the agent's move is `exec` of the latched command, or nothing. -/
theorem stepRunsTheLatchedCommand : Obligations.StepRunsTheLatchedCommand := by
  unfold Obligations.StepRunsTheLatchedCommand
  intro s
  have hvad : (takeTurn s).env.turn = .vadUnit → step s = vadMove (takeTurn s) := fun turn => by
    simp only [step, agentMove, turn]
  have hmp3 : (takeTurn s).env.turn = .mp3Unit → step s = mp3Move (takeTurn s) := fun turn => by
    simp only [step, agentMove, turn]
  refine ⟨fun turn run running => ?_, fun turn run running => ?_, fun turn idle => ?_, fun turn idle => ?_⟩
  · rw [hvad turn, vadMove, takeTurn_vad, running]
  · rw [hmp3 turn, mp3Move, takeTurn_mp3, running]
  · rw [hvad turn, vadMove, takeTurn_vad, idle]
  · rw [hmp3 turn, mp3Move, takeTurn_mp3, idle]

end Sys2Proof.Machine
end

section
/-! SUPPORT. The memory family (20_memory.md R47 to R54, R60, R61): the argument check of VAD_PROCESS, the walk of its
MemReads through the input, what host memory answers, where the inner decoder writes, and what the commands of each unit
leave as it is. -/

namespace Sys2Proof.Machine

/-! ### The argument check of VAD_PROCESS -/

/-- At the host's turn a VAD_PROCESS is its acceptance procedure (30_encoding.md R72). -/
theorem exec_vadProcess_host {s : State} (turn : s.env.turn = .host) :
    exec .vadProcess s = .next (issueVad (.process .start) (checkProcessArgs s.vad.arg1 s.vad.arg2) s) := by
  simp only [exec, execVadProcess, turn]

/-- An idle VAD unit decides by the argument check alone. -/
theorem issueVad_idle {s : State} (idle : s.vad.run = none) (seq : VadSeq) :
    (∀ cause, issueVad seq (some cause) s = reject .vad cause s) ∧ issueVad seq none s = acceptVad seq s := by
  simp [issueVad, vadBusy, idle]

theorem checkProcessArgs_misaligned {addr blen : Word} (count : 0 < sampleCount blen)
    (unaligned : addr.toNat % 4 ≠ 0) : checkProcessArgs addr blen = some .misaligned := by
  rw [checkProcessArgs, if_neg count.ne', if_pos unaligned]

theorem checkProcessArgs_rangeWrap {addr blen : Word} (count : 0 < sampleCount blen)
    (aligned : addr.toNat % 4 = 0) (wraps : addressTop < addr.toNat + 4 * sampleCount blen) :
    checkProcessArgs addr blen = some .rangeWrap := by
  rw [checkProcessArgs, if_neg count.ne', if_neg (not_not.2 aligned), if_pos wraps]

/-- The arguments that are accepted (20_memory.md R51, R52). -/
theorem checkProcessArgs_eq_none {addr blen : Word} :
    checkProcessArgs addr blen = none
      ↔ sampleCount blen = 0 ∨ (addr.toNat % 4 = 0 ∧ addr.toNat + 4 * sampleCount blen ≤ addressTop) := by
  unfold checkProcessArgs
  split_ifs with empty unaligned wraps
  · simp [empty]
  · simp [empty, unaligned]
  · simp [empty, Nat.not_le.2 wraps]
  · simp [not_not.1 unaligned, Nat.not_lt.1 wraps]

/-- Settles O9: an idle unit's answer is the argument check's. -/
theorem vadProcessChecksAlignmentThenRange : Obligations.VadProcessChecksAlignmentThenRange := by
  unfold Obligations.VadProcessChecksAlignmentThenRange
  intro s turn idle
  obtain ⟨rejects, accepts⟩ := issueVad_idle idle (.process .start)
  rw [exec_vadProcess_host turn]
  refine ⟨fun count unaligned => ?_, fun count aligned wraps => ?_, fun fits => ?_⟩
  · rw [checkProcessArgs_misaligned count unaligned, rejects]
  · rw [checkProcessArgs_rangeWrap count aligned wraps, rejects]
  · rw [checkProcessArgs_eq_none.2 fits, accepts]

/-! ### The MemReads of a VAD_PROCESS -/

/-- The next sample stands 4 bytes past each sample read so far (20_memory.md R53). -/
theorem WorkOk.next_address {u : VadUnit} {run : VadRun} {w : ProcWork} (h : WorkOk u run w) (left : 0 < w.rem) :
    w.p = run.addrA.toNat + 4 * u.memLog.length ∧ u.memLog.length < sampleCount run.blenA := by
  have hlength := h.reads_length
  have hrest := h.rest
  have hpointer := h.pointer
  rw [List.length_reverse, samplesRead] at hlength
  omega

/-- A pass of the loop that posts a MemRead reads at its pointer, with input left (41_vad_frame_assembler.md R101). -/
theorem iterate_posts {w : ProcWork} {s t : State} {a : Word} (idle : s.vad.memPort = .idle)
    (next : iterate w s = .next t) (posted : t.vad.memPort = .pending a) :
    a = BitVec.ofNat 32 w.p ∧ 0 < w.rem ∧ w.p % 4 = 0 ∧ w.p + 4 ≤ addressTop ∧ t.vad.memLog = s.vad.memLog := by
  rcases iterate_cases next with ⟨-, rfl⟩ | ⟨-, -, rfl⟩ | ⟨-, left, aligned, inside, rfl⟩
  · cases idle.symm.trans posted
  · cases idle.symm.trans posted
  · injection posted with ha
    exact ⟨ha.symm, left, aligned, inside, rfl⟩

/-- Only a pass of the iterator loop puts a request on the memory port. -/
theorem VadExec.of_posts {s t : State} {a : Word} (h : VadExec s t) (free : ∀ b, s.vad.memPort ≠ .pending b)
    (posted : t.vad.memPort = .pending a) :
    ∃ run w s', s.vad.run = some run ∧ AtHead s run w s' ∧ iterate w s' = .next t := by
  cases h with
  | pass run w s' t turn running head next => exact ⟨run, w, s', running, head, next⟩
  | nothing | overruns | rejects | accepts | initPulse | initEnd | setmodeEnd | rateFail | verdict =>
    exact absurd posted (free a)

/-- On the way to the loop head the read record takes up an answered word, and nothing else. -/
theorem AtHead.memLog {s s' : State} {run : VadRun} {w : ProcWork} (head : AtHead s run w s')
    (idle : s'.vad.memPort = .idle) :
    (s.vad.memPort = .idle → s'.vad.memLog = s.vad.memLog)
    ∧ ∀ word, s.vad.memPort = .answered word → ∃ p, s'.vad.memLog = (p, word) :: s.vad.memLog := by
  cases head with
  | start | verdict => exact ⟨fun _ => rfl, fun word answered => by cases idle.symm.trans answered⟩
  | sample w word seq answered inside =>
    refine ⟨fun free => (by cases free.symm.trans answered), fun word' answered' => ⟨BitVec.ofNat 32 w.p, ?_⟩⟩
    cases answered.symm.trans answered'
    rfl

/-- Settles O22: the pass that posts a MemRead has the iterator's invariant, by which the pointer is the next sample's
address. -/
theorem memReadsWalkTheInputInOrder : Obligations.MemReadsWalkTheInputInOrder := by
  unfold Obligations.MemReadsWalkTheInputInOrder
  intro s t run a inv turn running next free posted
  obtain ⟨run', w, s', running', head, pass⟩ := (vadExec_of_exec rfl next).of_posts free posted
  cases running.symm.trans running'
  have ok := atHead_ok inv.vad running head
  obtain ⟨idle, -⟩ := ok.ports
  obtain ⟨rfl, left, aligned, inside, hlog⟩ := iterate_posts idle pass posted
  obtain ⟨address, count⟩ := ok.work.next_address left
  have htoNat : (BitVec.ofNat 32 w.p).toNat = w.p :=
    (BitVec.toNat_ofNat _ _).trans
      (Nat.mod_eq_of_lt (Nat.lt_of_lt_of_le (Nat.lt_add_of_pos_right (by decide)) inside))
  rw [htoNat, hlog]
  exact ⟨address, count, aligned, inside, head.memLog idle⟩

/-! ### What host memory answers -/

/-- A word of which the bits of a mask are taken from another has its own bits outside the mask. -/
theorem getLsbD_blend {w free mask : Word} {k : Nat} (hk : k < 32) (fixed : mask.getLsbD k = false) :
    ((w &&& ~~~ mask) ||| (free &&& mask)).getLsbD k = w.getLsbD k := by
  simp only [BitVec.getLsbD_or, BitVec.getLsbD_and, BitVec.getLsbD_not, fixed, hk, decide_true, Bool.not_false,
    Bool.and_true, Bool.and_false, Bool.or_false]

/-- Where memory backs the address of a request, it answers a word that is the memory's on every fixed bit; the state
after it differs by a free word used up at most (20_memory.md R50, R54). -/
theorem memoryMove_backed {s : State} {a w : Word} (port : s.vad.memPort = .pending a)
    (word : wordAt s.mem a.toNat = some w) :
    ∃ v s', memoryMove s = { s' with vad := { s'.vad with memPort := .answered v } }
      ∧ (s' = s ∨ s' = drawn s)
      ∧ (unfixedBits s a.toNat = 0 → v = w ∧ s' = s)
      ∧ ∀ k < 32, (unfixedBits s a.toNat).getLsbD k = false → v.getLsbD k = w.getLsbD k := by
  unfold memoryMove memRead
  simp only [port, word]
  by_cases fixed : unfixedBits s a.toNat = 0
  · rw [if_pos fixed]
    exact ⟨w, s, rfl, .inl rfl, fun _ => ⟨rfl, rfl⟩, fun _ _ _ => rfl⟩
  · rw [if_neg fixed]
    exact ⟨_, drawn s, rfl, .inr rfl, fun h => absurd h fixed, fun k hk => getLsbD_blend hk⟩

/-- The four bytes of a word at an address, the lowest first (20_memory.md R49). -/
theorem wordAt_bytes {mem : Memory} {a : Nat} {b0 b1 b2 b3 : Byte} (h0 : readByte mem a = some b0)
    (h1 : readByte mem (a + 1) = some b1) (h2 : readByte mem (a + 2) = some b2) (h3 : readByte mem (a + 3) = some b3) :
    wordAt mem a = some (b3 ++ b2 ++ b1 ++ b0) := by
  simp only [wordAt, h0, h1, h2, h3]

/-- Settles O47: the word's bytes, stripped off from the lowest. -/
theorem memReadAnswersTheLittleEndianWord : Obligations.MemReadAnswersTheLittleEndianWord := by
  unfold Obligations.MemReadAnswersTheLittleEndianWord
  intro s a b0 b1 b2 b3 port h0 h1 h2 h3 fixed
  obtain ⟨v, s', answer, -, fixed_word, -⟩ := memoryMove_backed port (wordAt_bytes h0 h1 h2 h3)
  obtain ⟨rfl, rfl⟩ := fixed_word fixed
  refine ⟨_, answer, BitVec.extractLsb'_append_eq_right, ?byte1, ?byte2, ?byte3⟩
  case byte1 =>
    rw [extractLsb'_append_above (m := 8) _ _ 0]
    exact BitVec.extractLsb'_append_eq_right
  case byte2 =>
    rw [extractLsb'_append_above (m := 8) _ _ 8, extractLsb'_append_above (m := 8) _ _ 0]
    exact BitVec.extractLsb'_append_eq_right
  case byte3 =>
    rw [extractLsb'_append_above (m := 8) _ _ 16, extractLsb'_append_above (m := 8) _ _ 8,
      extractLsb'_append_above (m := 8) _ _ 0, BitVec.extractLsb'_eq_self]

/-- A host store outside the outputs of a running decode is the write of its byte, with the unclean bits kept
(20_memory.md R59). -/
theorem hostStore_outside {addr : Word} {s : State} (outside : inRunningOutput s.mp3 addr.toNat = false) (b : Byte) :
    ∃ stale, hostStore addr b s = { putByte addr.toNat b s with stale := stale } := by
  simp only [hostStore, outside, Bool.false_eq_true, if_false]
  exact ⟨_, rfl⟩

/-- A byte written over a known one while the VAD unit is BUSY adds its changed bits to the raced ones (20_memory.md
R54). -/
theorem maskAt_putByte_busy {s : State} {a : Nat} {old : Byte} (busy : vadBusy s.vad = true)
    (known : readByte s.mem a = some old) (b : Byte) (x : Nat) :
    maskAt (putByte a b s).race x = if x = a then maskAt s.race a ||| (old ^^^ b) else maskAt s.race x := by
  simp only [putByte, busy, if_true, known, changedBits, maskAt_add]

/-- Settles O48: the answer is the memory's on fixed bits, and a store adds the bits it changes. -/
theorem racedBitsAloneAreFree : Obligations.RacedBitsAloneAreFree := by
  unfold Obligations.RacedBitsAloneAreFree
  constructor
  · intro s a w port word
    obtain ⟨v, s', answer, rest, -, bits⟩ := memoryMove_backed port word
    refine ⟨v, ?_⟩
    rw [answer]
    rcases rest with rfl | rfl
    · exact ⟨rfl, rfl, rfl, bits⟩
    · exact ⟨rfl, rfl, rfl, bits⟩
  · intro s addr b old busy outside known x
    obtain ⟨stale, store⟩ := hostStore_outside outside b
    rw [store]
    refine (maskAt_putByte_busy busy known b x).trans ?_
    split
    · next here => rw [here]
    · rfl

/-! ### Where the inner decoder writes -/

theorem inRegion_eq_false {base size a : Nat} : inRegion base size a = false ↔ ¬(base ≤ a ∧ a < base + size) := by
  rw [inRegion, ← Bool.decide_and, decide_eq_false_iff_not]

/-- The writes of an answer leave every address outside both regions as it is (20_memory.md R48). -/
theorem readByte_writeOutputs {fmt : Fmt} {l r : Word} {x : Nat} (left : inRegion l.toNat (regionBytes fmt) x = false)
    (right : inRegion r.toNat (regionBytes fmt) x = false) (ws : OutputWrites) (s : State) :
    readByte (writeOutputs fmt l r ws s).mem x = readByte s.mem x :=
  (readByte_writeRegion right ws.right _).trans (readByte_writeRegion left ws.left s)

/-- A waiting call of the inner decoder is answered in its step (40_mp3_bootstrap.md R81). -/
theorem innerDecoderMove_pending {s : State} {r : IdecReq} (port : s.mp3.idecPort = .pending r) :
    ∃ n hp ws, innerDecoderMove s =
        { writeOutputs r.fmt r.left r.right ws s with
          mp3 := { s.mp3 with idecPort := .answered (n, hp), idecLog := .answer n hp :: s.mp3.idecLog }
          env := { s.env with idecAnswers := s.env.idecAnswers.tail } } := by
  rcases innerDecoderMove_cases s with same | ⟨r', n, hp, ws, port', answer⟩
  · have moved : (innerDecoderMove s).mp3.idecPort ≠ .pending r := by simp [innerDecoderMove, port]
    rw [same] at moved
    exact absurd port moved
  · cases port.symm.trans port'
    exact ⟨n, hp, ws, answer⟩

/-- Settles O50: the answer's writes stay inside the two regions. -/
theorem innerDecoderWritesOnlyItsOutputs : Obligations.InnerDecoderWritesOnlyItsOutputs := by
  unfold Obligations.InnerDecoderWritesOnlyItsOutputs
  intro s r port
  obtain ⟨n, hp, ws, answer⟩ := innerDecoderMove_pending port
  obtain ⟨hvad, -⟩ := writeOutputs_rest r.fmt r.left r.right ws s
  rw [answer]
  exact ⟨n, hp, rfl, hvad, fun a left right =>
    readByte_writeOutputs (inRegion_eq_false.2 left) (inRegion_eq_false.2 right) ws s⟩

/-! ### Frames -/

/-- A pass of the loop leaves the outside world, the argument registers and the number of the reset. -/
theorem iterate_keeps_args {w : ProcWork} {s t : State} (h : iterate w s = .next t) :
    t.env = s.env ∧ t.vad.arg0 = s.vad.arg0 ∧ t.vad.arg1 = s.vad.arg1 ∧ t.vad.arg2 = s.vad.arg2
      ∧ t.vad.rbEpoch = s.vad.rbEpoch := by
  rcases iterate_cases h with ⟨-, rfl⟩ | ⟨-, -, rfl⟩ | ⟨-, -, -, -, rfl⟩ <;> exact ⟨rfl, rfl, rfl, rfl, rfl⟩

/-- A step of a VAD command leaves the outside world, the argument registers and the number of the reset. -/
theorem VadExec.keeps_args {s t : State} (h : VadExec s t) :
    t.env = s.env ∧ t.vad.arg0 = s.vad.arg0 ∧ t.vad.arg1 = s.vad.arg1 ∧ t.vad.arg2 = s.vad.arg2
      ∧ t.vad.rbEpoch = s.vad.rbEpoch := by
  cases h with
  | pass run w s' t turn running head next =>
    obtain ⟨rb, port, log, rfl⟩ := atHead_state head
    have kept := iterate_keeps_args next
    exact kept
  | nothing | overruns | rejects | accepts | initPulse | initEnd | setmodeEnd | rateFail | verdict =>
    exact ⟨rfl, rfl, rfl, rfl, rfl⟩

/-- Only acceptance, at the host's turn, empties the record of raced bits (log 12). -/
theorem VadExec.race_cases {s t : State} (h : VadExec s t) :
    t.race = s.race ∨ (t.race = [] ∧ s.env.turn = .host) := by
  cases h with
  | accepts seq turn => exact .inr ⟨rfl, turn⟩
  | pass run w s' t turn running head next =>
    obtain ⟨rb, port, log, rfl⟩ := atHead_state head
    obtain ⟨-, -, -, hrace, -⟩ := iterate_rest next
    exact .inl hrace
  | nothing | overruns | rejects | initPulse | initEnd | setmodeEnd | rateFail | verdict => exact .inl rfl

/-- The acceptance procedure of a VAD command touches neither the ring nor a port (30_encoding.md R72). -/
theorem issueVad_keeps_ports (seq : VadSeq) (check : Option Cause) (s : State) :
    (issueVad seq check s).vad.rb = s.vad.rb ∧ (issueVad seq check s).vad.memPort = s.vad.memPort
      ∧ (issueVad seq check s).vad.ivadPort = s.vad.ivadPort := by
  rcases issueVad_cases (rfl : issueVad seq check s = _) with ⟨-, e⟩ | ⟨-, cause, -, e⟩ | ⟨-, -, e⟩ <;> rw [e] <;>
    exact ⟨rfl, rfl, rfl⟩

/-- VAD_INIT and VAD_SETMODE touch neither the ring nor a port (43_vad_session.md R122, R123). -/
theorem exec_keeps_vadPorts {i : Instr} {s t : State} (hi : i.unit = .vad) (other : i ≠ .vadProcess)
    (next : exec i s = .next t) :
    t.vad.rb = s.vad.rb ∧ t.vad.memPort = s.vad.memPort ∧ t.vad.ivadPort = s.vad.ivadPort := by
  rcases exec_vad_cases hi next with ⟨-, seq, check, rfl, -⟩ | ⟨-, -, h⟩ | ⟨-, -, h⟩ | ⟨-, process, -⟩ | rfl
  · exact issueVad_keeps_ports seq check s
  · rcases runVadInit_cases h with ⟨run, -, -, rfl⟩ | ⟨run, -, -, rfl⟩ | rfl <;> exact ⟨rfl, rfl, rfl⟩
  · rcases runVadSetmode_cases h with ⟨run, -, -, rfl⟩ | rfl <;> exact ⟨rfl, rfl, rfl⟩
  · exact absurd process other
  · exact ⟨rfl, rfl, rfl⟩

/-- Settles O33: none of the steps a VAD command can take touches anything else. -/
theorem vadCommandsChangeOnlyTheirUnit : Obligations.VadCommandsChangeOnlyTheirUnit := by
  unfold Obligations.VadCommandsChangeOnlyTheirUnit
  intro i s t hi next
  have effect := vadExec_of_exec hi next
  obtain ⟨hmp3, hirq, hmem, -, hstale⟩ := effect.rest
  obtain ⟨henv, harg0, harg1, harg2, hepoch⟩ := effect.keeps_args
  exact ⟨hmp3, hirq, fun a => by rw [hmem], hstale, henv, effect.race_cases, harg0, harg1, harg2, hepoch,
    fun other => exec_keeps_vadPorts hi other next⟩

/-- A step of an MP3 command leaves the outside world and the argument registers. -/
theorem Mp3Exec.keeps_args {s t : State} (h : Mp3Exec s t) :
    t.env = s.env ∧ t.mp3.arg0 = s.mp3.arg0 ∧ t.mp3.arg1 = s.mp3.arg1 ∧ t.mp3.arg2 = s.mp3.arg2
      ∧ t.mp3.arg3 = s.mp3.arg3 := by
  cases h <;> exact ⟨rfl, rfl, rfl, rfl, rfl⟩

/-- The acceptance procedure of an MP3 command posts no call (30_encoding.md R72). -/
theorem issueMp3_keeps_port (seq : Mp3Seq) (check : Option Cause) (s : State) :
    (issueMp3 seq check s).mp3.idecPort = s.mp3.idecPort := by
  rcases issueMp3_cases (rfl : issueMp3 seq check s = _) with ⟨-, e⟩ | ⟨-, cause, -, e⟩ | ⟨-, -, e⟩ <;> rw [e] <;> rfl

/-- MP3_RESET posts no call and takes no answer (40_mp3_bootstrap.md R94). -/
theorem exec_mp3Reset_keeps_port {s t : State} (next : exec .mp3Reset s = .next t) :
    t.mp3.idecPort = s.mp3.idecPort := by
  rcases exec_mp3_cases rfl next with ⟨-, ⟨fmt, rfl⟩ | rfl⟩ | ⟨-, s16, -⟩ | ⟨-, f32, -⟩ | ⟨-, -, h⟩ | rfl
  · exact issueMp3_keeps_port _ _ s
  · exact issueMp3_keeps_port _ _ s
  · cases s16
  · cases f32
  · rcases runMp3Reset_cases h with ⟨run, -, -, rfl⟩ | ⟨run, -, -, rfl⟩ | rfl <;> rfl
  · rfl

/-- Settles O34: none of the steps an MP3 command can take touches anything else. -/
theorem mp3CommandsChangeOnlyTheirUnit : Obligations.Mp3CommandsChangeOnlyTheirUnit := by
  unfold Obligations.Mp3CommandsChangeOnlyTheirUnit
  intro i s t hi next
  have effect := mp3Exec_of_exec hi next
  obtain ⟨hvad, hirq, hmem, hrace, hstale⟩ := effect.rest
  obtain ⟨henv, harg0, harg1, harg2, harg3⟩ := effect.keeps_args
  refine ⟨hvad, hirq, fun a => by rw [hmem], hrace, hstale, henv, harg0, harg1, harg2, harg3, ?_⟩
  rintro rfl
  exact exec_mp3Reset_keeps_port next

end Sys2Proof.Machine
end

section
/-! SUPPORT. The encoding family (30_encoding.md R68 to R75): the fields of a command word, the decoder as an `↔` in
both directions, the issue of a command through the window and at the host's turn, and acceptance by an idle unit. -/

namespace Sys2Proof.Machine

/-! ### The fields of a command word -/

/-- The two fields fill the command word (30_encoding.md R68). -/
theorem rsvField_append_opField (w : Word) : rsvField w ++ opField w = w := by
  unfold rsvField opField
  rw [BitVec.extractLsb'_append_extractLsb'_eq_extractLsb' (by decide)]
  exact BitVec.extractLsb'_eq_self

@[simp] theorem opField_encode (i : Instr) : opField (encode i) = i.opcode := BitVec.extractLsb'_append_eq_right

@[simp] theorem rsvField_encode (i : Instr) : rsvField (encode i) = 0 := BitVec.extractLsb'_append_eq_left

/-- A command's word, by its fields (30_encoding.md R70). -/
theorem eq_encode_iff {w : Word} {i : Instr} : w = encode i ↔ opField w = i.opcode ∧ rsvField w = 0 := by
  constructor
  · rintro rfl
    exact ⟨opField_encode i, rsvField_encode i⟩
  · rintro ⟨op, rsv⟩
    rw [← rsvField_append_opField w, op, rsv, encode]

/-! ### Decoding a command word -/

/-- Each unit's opcodes are those of its own commands (30_encoding.md R69, R70). -/
theorem commandOf_eq_some_iff {u : UnitId} {op : BitVec 8} {i : Instr} :
    commandOf u op = some i ↔ i.unit = u ∧ op = i.opcode := by
  constructor
  · intro h
    cases u with
    | vad | mp3 =>
      simp only [commandOf] at h
      split_ifs at h with op1 op2 op3 <;> injection h with h <;> subst h
      · exact ⟨rfl, op1⟩
      · exact ⟨rfl, op2⟩
      · exact ⟨rfl, op3⟩
  · rintro ⟨rfl, rfl⟩
    cases i with
    | vadInit | vadSetmode | vadProcess | mp3DecodeS16 | mp3DecodeF32 | mp3Reset => rfl

/-- Both units know the opcodes 1, 2 and 3 alone (30_encoding.md R75). -/
theorem commandOf_eq_none_iff {u : UnitId} {op : BitVec 8} :
    commandOf u op = none ↔ op ≠ 1 ∧ op ≠ 2 ∧ op ≠ 3 := by
  cases u with
  | vad | mp3 => simp only [commandOf, ite_eq_iff, and_false, false_or, and_true, ne_eq, reduceCtorEq]

theorem decodeCommand_eq_ok_iff {u : UnitId} {w : Word} {i : Instr} :
    decodeCommand u w = .ok i ↔ i.unit = u ∧ w = encode i := by
  rw [eq_encode_iff, ← and_assoc, ← commandOf_eq_some_iff]
  unfold decodeCommand
  cases commandOf u (opField w) with
  | none => simp
  | some j =>
    dsimp only
    split_ifs with rsv
    · simp only [Except.ok.injEq, Option.some.injEq, rsv, and_true]
    · simp only [rsv, and_false]

/-- A command's word decodes to it on its own register. -/
theorem decodeCommand_encode (i : Instr) : decodeCommand i.unit (encode i) = .ok i :=
  decodeCommand_eq_ok_iff.2 ⟨rfl, rfl⟩

theorem decodeCommand_unknownOpcode {w : Word} (u : UnitId)
    (unknown : opField w ≠ 1 ∧ opField w ≠ 2 ∧ opField w ≠ 3) : decodeCommand u w = .error .unknownOpcode := by
  rw [decodeCommand, commandOf_eq_none_iff.2 unknown]

theorem decodeCommand_reservedBits {w : Word} (u : UnitId)
    (known : opField w = 1 ∨ opField w = 2 ∨ opField w = 3) (reserved : rsvField w ≠ 0) :
    decodeCommand u w = .error .reservedBits := by
  obtain ⟨i, command⟩ := Option.ne_none_iff_exists'.1 (commandOf_eq_none_iff (u := u).not.2 (by tauto))
  rw [decodeCommand, command]
  exact if_neg reserved

/-- Settles O3: six words are their commands' encodings; the other three have an unknown opcode or a reserved bit. -/
theorem sampleWordsDecodeAsListed : Obligations.SampleWordsDecodeAsListed := by
  unfold Obligations.SampleWordsDecodeAsListed
  exact ⟨decodeCommand_encode .vadInit, decodeCommand_encode .vadSetmode, decodeCommand_encode .vadProcess,
    decodeCommand_encode .mp3DecodeS16, decodeCommand_encode .mp3DecodeF32, decodeCommand_encode .mp3Reset,
    decodeCommand_unknownOpcode .vad (by decide), decodeCommand_unknownOpcode .vad (by decide),
    decodeCommand_reservedBits .mp3 (by decide) (by decide)⟩

/-! ### Issue transactions -/

/-- The command registers are of the map (10_state.md R11), and their offsets fit the window's 13 bits. -/
theorem cmdReg_wellFormed (u : UnitId) : u.cmdReg.wellFormed = true ∧ u.cmdReg.offset < 2 ^ 13 := by
  cases u with
  | vad | mp3 => decide

theorem toOption_eq_some_iff {ε α : Type} {x : Except ε α} {a : α} : x.toOption = some a ↔ x = .ok a := by
  cases x with
  | error e => simp [Except.toOption]
  | ok b => simp [Except.toOption]

/-- A command is read at a command register's offset, by that register's unit. -/
theorem decodeIssue_eq_some_iff {offset : Nat} {w : Word} {i : Instr} :
    decodeIssue offset w = some i ↔ ∃ u : UnitId, regAt offset = some u.cmdReg ∧ decodeCommand u w = .ok i := by
  constructor
  · intro h
    unfold decodeIssue at h
    split at h
    · next reg => exact ⟨.vad, reg, toOption_eq_some_iff.1 h⟩
    · next reg => exact ⟨.mp3, reg, toOption_eq_some_iff.1 h⟩
    · cases h
  · rintro ⟨u, reg, ok⟩
    unfold decodeIssue
    rw [reg]
    cases u with
    | vad | mp3 => exact toOption_eq_some_iff.2 ok

theorem decodeIssue_exact {offset : Nat} {w : Word} {i : Instr} :
    decodeIssue offset w = some i ↔ offset = i.unit.cmdReg.offset ∧ w = encode i := by
  rw [decodeIssue_eq_some_iff]
  constructor
  · rintro ⟨u, reg, ok⟩
    obtain ⟨rfl, word⟩ := decodeCommand_eq_ok_iff.1 ok
    obtain ⟨-, hoffset⟩ := regAt_eq_some_iff.1 reg
    exact ⟨hoffset.symm, word⟩
  · rintro ⟨rfl, rfl⟩
    exact ⟨i.unit, regAt_offset (cmdReg_wellFormed i.unit).1, decodeCommand_encode i⟩

/-- Settles O1: a word is determined by its two fields, and an offset by its register. -/
theorem issueTransactionsDecodeExactly : Obligations.IssueTransactionsDecodeExactly := by
  unfold Obligations.IssueTransactionsDecodeExactly
  exact ⟨fun _ _ _ => decodeCommand_eq_ok_iff, fun _ _ _ => decodeIssue_exact⟩

/-! ### Writes to a command register -/

/-- An aligned 32-bit write at a command register's offset is a command write (30_encoding.md R71). -/
theorem windowWrite_cmdReg {u : UnitId} {offset : BitVec 13} (hoffset : u.cmdReg.offset = offset.toNat) (w : Word)
    (s : State) : windowWrite offset .w32 w s = commandWrite u w s := by
  rw [(window_defined (cmdReg_wellFormed u).1 hoffset s).2 w]
  cases u with
  | vad | mp3 => rfl

/-- An idle unit rejects a word that does not decode, with the decoder's cause (30_encoding.md R72). -/
theorem commandWrite_rejects {u : UnitId} {w : Word} {cause : Cause} {s : State} (idle : busy u s = false)
    (illegal : decodeCommand u w = .error cause) : commandWrite u w s = .next (reject u cause s) := by
  simp only [commandWrite, illegal, idle, Bool.false_eq_true, if_false]

/-- An aligned 32-bit write of an issue transaction is a step of its command (30_encoding.md R72). -/
theorem windowWrite_issue {offset : BitVec 13} {w : Word} {i : Instr} (issue : decodeIssue offset.toNat w = some i)
    (s : State) : windowWrite offset .w32 w s = exec i s := by
  obtain ⟨hoffset, rfl⟩ := decodeIssue_exact.1 issue
  rw [windowWrite_cmdReg hoffset.symm, commandWrite, decodeCommand_encode]

/-- Settles O2: the decoder gives the cause, and either way of writing the register is the command write. -/
theorem illegalWordsAreRejectedWithTheirCause : Obligations.IllegalWordsAreRejectedWithTheirCause := by
  unfold Obligations.IllegalWordsAreRejectedWithTheirCause
  intro u offset w s idle hoffset
  have window : windowWrite offset .w32 w s = commandWrite u w s := by
    refine windowWrite_cmdReg ?_ w s
    subst hoffset
    cases u with
    | vad | mp3 => rfl
  rw [window]
  refine ⟨fun unknown => ?_, fun known reserved => ?_, rfl, rfl⟩
  · exact and_self_iff.2 (commandWrite_rejects idle (decodeCommand_unknownOpcode u unknown))
  · exact and_self_iff.2 (commandWrite_rejects idle (decodeCommand_reservedBits u known reserved))

/-! ### The turn of the host -/

/-- At the host's turn the step is the host's next transaction (60_exceptions.md R141). -/
theorem step_hostOp {s : State} {op : HostOp} {ops : List HostOp} (turn : (takeTurn s).env.turn = .host)
    (next : s.env.hostOps = op :: ops) : step s = hostOp op (takeTurn s) := by
  simp only [step, agentMove, turn, hostMove, takeTurn_env_hostOps, next]

theorem step_issue {s : State} {offset : BitVec 13} {w : Word} {i : Instr} {ops : List HostOp}
    (turn : (takeTurn s).env.turn = .host) (next : s.env.hostOps = .write offset .w32 w :: ops)
    (issue : decodeIssue offset.toNat w = some i) : step s = exec i (popHostOp (takeTurn s)) := by
  rw [step_hostOp turn next, hostOp, windowWrite_issue issue]

/-- An offset that a command is read at fits the 13 bits of a window offset. -/
theorem decodeIssue_offset_fits {offset : Nat} {w : Word} {i : Instr} (issue : decodeIssue offset w = some i) :
    (BitVec.ofNat 13 offset).toNat = offset := by
  obtain ⟨rfl, -⟩ := decodeIssue_exact.1 issue
  exact Nat.mod_eq_of_lt (cmdReg_wellFormed i.unit).2

/-- A placed issue transaction is taken off again by the very next step, which is the host's (log 4). -/
theorem popHostOp_takeTurn_withFetchWord (s : State) (nbits w : Nat) :
    popHostOp (takeTurn (s.withFetchWord nbits w)) = atTurn .host s := rfl

/-- Every command is read from the 64 bits of its issue transaction (log 5). -/
theorem decodeTableWord_encodeIssue (i : Instr) : decodeTableWord 64 (encodeIssue i) = some i := by
  have row : Laws.TableRow.Statement i := by
    cases i with
    | vadInit => exact Laws.TableRow.vadInit
    | vadSetmode => exact Laws.TableRow.vadSetmode
    | vadProcess => exact Laws.TableRow.vadProcess
    | mp3DecodeS16 => exact Laws.TableRow.mp3DecodeS16
    | mp3DecodeF32 => exact Laws.TableRow.mp3DecodeF32
    | mp3Reset => exact Laws.TableRow.mp3Reset
  obtain ⟨-, -, -, decodes⟩ := row
  exact decodes

/-- Settles O5: the host's transaction is a window write of the command's word; a placed one is the host's next. -/
theorem stepRunsTheIssuedCommand : Obligations.StepRunsTheIssuedCommand := by
  unfold Obligations.StepRunsTheIssuedCommand
  refine ⟨fun s offset w i ops turn next issue => step_issue turn next issue, fun s nbits w i decodes => ?_,
    decodeTableWord_encodeIssue⟩
  have issue : decodeIssue (BitVec.ofNat 13 (issueBits nbits w / 2 ^ 32)).toNat
      (BitVec.ofNat 32 (issueBits nbits w)) = some i := by
    rw [decodeIssue_offset_fits decodes]
    exact decodes
  rw [step_issue (s := s.withFetchWord nbits w) rfl rfl issue, popHostOp_takeTurn_withFetchWord]

/-! ### Acceptance by an idle unit -/

/-- At the host's turn the commands without an argument check are their acceptance procedure (30_encoding.md R72). -/
theorem exec_unchecked_host {s : State} (turn : s.env.turn = .host) :
    exec .vadInit s = .next (issueVad (.init false) none s) ∧ exec .vadSetmode s = .next (issueVad .setmode none s)
      ∧ exec .mp3Reset s = .next (issueMp3 (.reset false) none s) := by
  simp only [exec, execVadInit, execVadSetmode, execMp3Reset, turn, and_self]

/-- An idle MP3 unit decides by the argument check alone. -/
theorem issueMp3_idle {s : State} (idle : s.mp3.run = none) (seq : Mp3Seq) :
    (∀ cause, issueMp3 seq (some cause) s = reject .mp3 cause s) ∧ issueMp3 seq none s = acceptMp3 seq s := by
  simp [issueMp3, mp3Busy, idle]

/-- Settles O11: an idle unit accepts what has no check; acceptance is the stated update. -/
theorem idleUnitsAcceptAndLatch : Obligations.IdleUnitsAcceptAndLatch := by
  unfold Obligations.IdleUnitsAcceptAndLatch
  refine ⟨fun s turn idle => ?_, fun s turn idle => ?_, fun _ _ => ⟨rfl, rfl⟩, fun _ _ => ⟨rfl, rfl⟩⟩
  · obtain ⟨init, setmode, -⟩ := exec_unchecked_host turn
    rw [init, setmode, (issueVad_idle idle _).2, (issueVad_idle idle _).2]
    exact ⟨rfl, rfl⟩
  · obtain ⟨-, -, reset⟩ := exec_unchecked_host turn
    rw [reset, (issueMp3_idle idle _).2]

end Sys2Proof.Machine
end

section
/-! SUPPORT. The bootstrap family (40_mp3_bootstrap.md R79 to R94): the argument check of MP3_DECODE_*, the steps of a
running decode position by position, and MP3_RESET. -/

namespace Sys2Proof.Machine

/-! ### The argument check of MP3_DECODE_* -/

/-- At the host's turn an MP3_DECODE_* is its acceptance procedure (30_encoding.md R72). -/
theorem exec_decodeInstr_host {s : State} (turn : s.env.turn = .host) (fmt : Fmt) :
    exec (decodeInstr fmt) s = .next (issueDecode fmt s) := by
  cases fmt with
  | s16 => simp only [decodeInstr, exec, execMp3DecodeS16, turn]
  | f32 => simp only [decodeInstr, exec, execMp3DecodeF32, turn]

/-- A nonempty input range or an output region that passes 2^32 (40_mp3_bootstrap.md R79). -/
theorem checkDecodeArgs_rangeWrap {fmt : Fmt} {inp len l r : Word}
    (wraps : (0 < len.toNat ∧ addressTop < inp.toNat + len.toNat)
      ∨ addressTop < l.toNat + regionBytes fmt ∨ addressTop < r.toNat + regionBytes fmt) :
    checkDecodeArgs fmt inp len l r = some .rangeWrap := by
  unfold checkDecodeArgs
  rcases wraps with ⟨nonempty, input⟩ | output
  · rw [if_pos ⟨nonempty.ne', input⟩]
  · rw [if_pos output, ite_self]

/-- Where no range passes 2^32, the regions' overlap alone decides (40_mp3_bootstrap.md R79). -/
theorem checkDecodeArgs_inRange {fmt : Fmt} {inp len l r : Word}
    (fits : ¬((0 < len.toNat ∧ addressTop < inp.toNat + len.toNat)
      ∨ addressTop < l.toNat + regionBytes fmt ∨ addressTop < r.toNat + regionBytes fmt)) :
    checkDecodeArgs fmt inp len l r =
      if l.toNat < r.toNat + regionBytes fmt ∧ r.toNat < l.toNat + regionBytes fmt then some .bufferOverlap
      else none := by
  obtain ⟨input, outputs⟩ := not_or.1 fits
  rw [checkDecodeArgs, if_neg fun wraps => input ⟨Nat.pos_of_ne_zero wraps.1, wraps.2⟩, if_neg outputs]

/-- Settles O10: an idle unit's answer is the argument check's. -/
theorem mp3DecodeChecksRangesThenOverlap : Obligations.Mp3DecodeChecksRangesThenOverlap := by
  unfold Obligations.Mp3DecodeChecksRangesThenOverlap
  rintro fmt s _ _ _ _ size turn idle rfl rfl rfl rfl hsize
  have region : size = regionBytes fmt := by
    rw [hsize]
    cases fmt with
    | s16 | f32 => rfl
  obtain ⟨rejects, accepts⟩ := issueMp3_idle idle (.decode fmt (.call bootStart))
  rw [exec_decodeInstr_host turn, issueDecode, region]
  split_ifs with wraps overlap
  · rw [checkDecodeArgs_rangeWrap wraps, rejects]
  · rw [checkDecodeArgs_inRange wraps, if_pos overlap, rejects]
  · rw [checkDecodeArgs_inRange wraps, if_neg overlap, accepts]

/-! ### The transition function -/

/-- `T` never returns `init` (40_mp3_bootstrap.md R83). -/
theorem bootNext_ne_init (b : Bst) (n : Word) (hp : Bool) : bootNext b n hp ≠ .init := by
  cases b with
  | init | head => unfold bootNext; split_ifs <;> exact Bst.noConfusion
  | frame | done => exact Bst.noConfusion

/-- Before `done`, `T` moves strictly later (40_mp3_bootstrap.md R83). -/
theorem bootNext_later {b : Bst} (going : b ≠ .done) (n : Word) (hp : Bool) :
    (bstCode b).toNat < (bstCode (bootNext b n hp)).toNat := by
  cases b with
  | init | head => unfold bootNext; split_ifs <;> decide
  | frame => exact (by decide : (bstCode .frame).toNat < (bstCode .done).toNat)
  | done => exact absurd rfl going

/-- Settles O28: the rows are the branches of `T`. -/
theorem bootstrapTransitionsFollowTheTable : Obligations.BootstrapTransitionsFollowTheTable := by
  unfold Obligations.BootstrapTransitionsFollowTheTable
  intro n hp
  refine ⟨fun hn => if_neg hn.ne', fun hn hhp => ?_, fun hn hhp => ?_, fun hn => if_neg hn.ne,
    fun hn => if_neg fun row => hn.ne' row.1, fun hhp => if_neg fun row => ?_, fun hn hhp => if_pos ⟨hn, hhp⟩,
    fun hn _ => if_neg fun row => hn.ne row.1, rfl, fun b => bootNext_ne_init b n hp,
    fun b going => bootNext_later going n hp⟩
  · rw [bootNext, if_pos hn, hhp, if_neg Bool.false_ne_true]
  · rw [bootNext, if_pos hn, if_pos hhp]
  · exact Bool.false_ne_true (hhp.symm.trans row.2)

/-! ### The steps of a running decode -/

/-- At its unit's turn an MP3_DECODE_* takes its next step. -/
theorem exec_decodeInstr_mp3Unit {s : State} (turn : s.env.turn = .mp3Unit) (fmt : Fmt) :
    exec (decodeInstr fmt) s = .next (runDecode fmt s) := by
  obtain ⟨s16, f32, -⟩ := exec_mp3Unit turn
  cases fmt with
  | s16 => exact s16
  | f32 => exact f32

/-- The unit's step in each position of a decode (40_mp3_bootstrap.md R85 to R87). -/
theorem runDecode_call {fmt : Fmt} {s : State} {run : Mp3Run} {b : Boot} (running : s.mp3.run = some run)
    (seq : run.seq = .decode fmt (.call b)) :
    runDecode fmt s = mp3Goto (.decode fmt (.wait b)) (postIdec (decodeRequest fmt run b) s) := by
  simp only [runDecode, running, seq, if_true]

theorem runDecode_answered {fmt : Fmt} {s : State} {run : Mp3Run} {b : Boot} {n : Word} {hp : Bool}
    (running : s.mp3.run = some run) (seq : run.seq = .decode fmt (.wait b))
    (port : s.mp3.idecPort = .answered (n, hp)) : runDecode fmt s = takeAnswer fmt run b n hp s := by
  simp only [runDecode, running, seq, port, if_true]

theorem runDecode_finish {fmt : Fmt} {s : State} {run : Mp3Run} {b : Boot} {n : Word}
    (running : s.mp3.run = some run) (seq : run.seq = .decode fmt (.finish b n)) :
    runDecode fmt s = completeMp3 (decodeCommit run b n) s := by
  simp only [runDecode, running, seq, if_true]

/-- The sequencer's move of a running command (10_state.md R43). -/
theorem mp3Goto_running {s : State} {run : Mp3Run} (running : s.mp3.run = some run) (seq : Mp3Seq) :
    mp3Goto seq s = { s with mp3 := { s.mp3 with run := some { run with seq := seq } } } := by
  rw [mp3Goto, running]
  rfl

/-! ### Calls and answers -/

theorem decodeRequest_fmt (fmt : Fmt) (run : Mp3Run) (b : Boot) :
    (decodeRequest fmt run b).fmt = fmt ∧ (decodeRequest fmt run b).left = run.leftA
      ∧ (decodeRequest fmt run b).right = run.rightA := by
  unfold decodeRequest
  split_ifs <;> exact ⟨rfl, rfl, rfl⟩

/-- The first call of the bootstrap path feeds the input (40_mp3_bootstrap.md R85). -/
theorem decodeRequest_feeds {run : Mp3Run} {b : Boot} (first : b.ncalls = 0) (fed : run.lenA ≠ 0) (fmt : Fmt) :
    (decodeRequest fmt run b).inPtr = run.inA ∧ (decodeRequest fmt run b).inLen = run.lenA := by
  rw [decodeRequest, if_pos ⟨first, fed⟩]
  exact ⟨rfl, rfl⟩

/-- Every other call is a flush call (40_mp3_bootstrap.md R84). -/
theorem decodeRequest_flushes {run : Mp3Run} {b : Boot} (other : ¬(b.ncalls = 0 ∧ run.lenA ≠ 0)) (fmt : Fmt) :
    (decodeRequest fmt run b).inPtr = 0 ∧ (decodeRequest fmt run b).inLen = 0 := by
  rw [decodeRequest, if_neg other]
  exact ⟨rfl, rfl⟩

/-- Settles O27: the step posts `decodeRequest`, which feeds the input once. -/
theorem decoderCallsFeedOnceThenFlush : Obligations.DecoderCallsFeedOnceThenFlush := by
  unfold Obligations.DecoderCallsFeedOnceThenFlush
  intro fmt s run b turn running seq
  obtain ⟨hfmt, hleft, hright⟩ := decodeRequest_fmt fmt run b
  refine ⟨decodeRequest fmt run b, ?_, hfmt, hleft, hright,
    fun first fed => decodeRequest_feeds first (BitVec.toNat_ne_iff_ne.1 fed.ne') fmt,
    fun flush => decodeRequest_flushes (fun feeds => ?_) fmt⟩
  · rw [exec_decodeInstr_mp3Unit turn, runDecode_call running seq,
      mp3Goto_running (s := postIdec (decodeRequest fmt run b) s) running]
    rfl
  · rcases flush with later | empty
    · exact later.ne' feeds.1
    · exact feeds.2 (BitVec.eq_of_toNat_eq empty)

/-- An answer's `hp` goes into the slot of its call, and the other slots stay (40_mp3_bootstrap.md R85, R86). -/
theorem bootAfter_hp (run : Mp3Run) (b : Boot) (n : Word) (hp : Bool) :
    (b.ncalls = 0 → (bootAfter run b n hp).hp1 = hp ∧ (bootAfter run b n hp).hp2 = b.hp2
        ∧ (bootAfter run b n hp).hp3 = b.hp3)
      ∧ (b.ncalls = 1 → (bootAfter run b n hp).hp1 = b.hp1 ∧ (bootAfter run b n hp).hp2 = hp
        ∧ (bootAfter run b n hp).hp3 = b.hp3)
      ∧ (b.ncalls = 2 → (bootAfter run b n hp).hp1 = b.hp1 ∧ (bootAfter run b n hp).hp2 = b.hp2
        ∧ (bootAfter run b n hp).hp3 = hp) := by
  refine ⟨fun calls => ?_, fun calls => ?_, fun calls => ?_⟩ <;> simp [bootAfter, calls]

/-- Settles O29: the answer is recorded by `bootAfter`, and `posAfter` is the next position. -/
theorem decoderAnswerMovesTheBootstrap : Obligations.DecoderAnswerMovesTheBootstrap := by
  unfold Obligations.DecoderAnswerMovesTheBootstrap
  intro fmt s run b n hp turn running seq port
  obtain ⟨slot1, slot2, slot3⟩ := bootAfter_hp run b n hp
  refine ⟨bootAfter run b n hp, posAfter run (bootAfter run b n hp) n, ?_, rfl, slot1, slot2, slot3,
    fun empty => ?_, fun fed => ?_⟩
  · rw [exec_decodeInstr_mp3Unit turn, runDecode_answered running seq port, takeAnswer,
      mp3Goto_running (s := { s with mp3 := { s.mp3 with idecPort := .idle } }) running]
  · have skip : run.lenA = 0 := BitVec.eq_of_toNat_eq empty
    exact ⟨if_pos skip, if_pos (.inl skip)⟩
  · have walk : run.lenA ≠ 0 := BitVec.toNat_ne_iff_ne.1 fed.ne'
    exact ⟨if_neg walk, fun ends => if_pos (.inr ends), fun goes => if_neg (not_or.2 ⟨walk, goes⟩)⟩

/-! ### Completion -/

/-- Settles O30: the step at `finish` is `complete` with the working copies of `decodeCommit`. -/
theorem decodeCompletesWithItsResults : Obligations.DecodeCompletesWithItsResults := by
  unfold Obligations.DecodeCompletesWithItsResults
  intro fmt s run b n turn running seq
  refine ⟨completeMp3 (decodeCommit run b n) s, ?_, rfl, rfl, decide_eq_true_iff, ?_, rfl⟩
  · rw [exec_decodeInstr_mp3Unit turn, runDecode_finish running seq]
  · simp [decodeCommit]

/-- Of the three outcomes of a decode that ends in `done` exactly one holds, by the sign of `n`
(40_mp3_bootstrap.md R89). -/
theorem decodeCommit_outcome (run : Mp3Run) {b : Boot} (ends : b.bst = .done) (n : Word) :
    ((decodeCommit run b n).error = true ∧ (decodeCommit run b n).needMore = false
        ∧ (decodeCommit run b n).samples = 0)
      ∨ ((decodeCommit run b n).error = false ∧ (decodeCommit run b n).needMore = true
        ∧ (decodeCommit run b n).samples = 0)
      ∨ ((decodeCommit run b n).error = false ∧ (decodeCommit run b n).needMore = false
        ∧ 0 < (decodeCommit run b n).samples.toNat) := by
  rcases lt_trichotomy n.toInt 0 with neg | zero | pos
  · exact .inl (by simp [decodeCommit, neg, neg.ne, neg.le])
  · exact .inr (.inl (by simp [decodeCommit, zero, ends]))
  · have samples : 0 < n.toNat := BitVec.toNat_pos_of_ne_zero (BitVec.toInt_ne.1 pos.ne')
    exact .inr (.inr (by simp [decodeCommit, pos, pos.ne', pos.le, samples]))

/-- Settles O31: the invariant fixes the end state and the number of calls, and `decodeCommit` reads them. -/
theorem decodeEndsInOneOfThreeOutcomes : Obligations.DecodeEndsInOneOfThreeOutcomes := by
  unfold Obligations.DecodeEndsInOneOfThreeOutcomes
  intro fmt s t run b n inv turn running seq next
  rw [exec_decodeInstr_mp3Unit turn, runDecode_finish running seq, next_inj] at next
  subst next
  obtain ⟨-, ⟨skipped, walked⟩, -⟩ := inv.mp3.decode running seq
  have calls : 1 ≤ b.ncalls ∧ b.ncalls ≤ 3 := by
    by_cases empty : run.lenA = 0
    · rw [(skipped empty).2]
      decide
    · exact (walked empty).2
  have ncalls : (completeMp3 (decodeCommit run b n) s).mp3.trace.ncalls.toNat = b.ncalls :=
    (BitVec.toNat_ofNat b.ncalls 2).trans (Nat.mod_eq_of_lt (Nat.lt_succ_of_le calls.2))
  rw [ncalls]
  refine ⟨calls.1, calls.2, fun fed => ?_, fun empty => ?_⟩
  · obtain ⟨ends, -⟩ := walked (BitVec.toNat_ne_iff_ne.1 fed.ne')
    exact ⟨ends, by simp [decodeCommit, ends], decodeCommit_outcome run ends n⟩
  · obtain ⟨start, once⟩ := skipped (BitVec.eq_of_toNat_eq empty)
    exact ⟨once, start, by simp [decodeCommit, start], fun zero => by simp [decodeCommit, zero]⟩

/-! ### MP3_RESET -/

/-- The unit's two steps of MP3_RESET (40_mp3_bootstrap.md R94). -/
theorem runMp3Reset_pulse {s : State} {run : Mp3Run} (running : s.mp3.run = some run) (seq : run.seq = .reset false) :
    runMp3Reset s = mp3Goto (.reset true) (pulseIdec s) := by
  simp only [runMp3Reset, running, Option.map_some, seq]

theorem runMp3Reset_complete {s : State} {run : Mp3Run} (running : s.mp3.run = some run)
    (seq : run.seq = .reset true) : runMp3Reset s = completeMp3 resetCommit s := by
  simp only [runMp3Reset, running, Option.map_some, seq]

/-- Settles O32: acceptance, the pulse and `complete`. -/
theorem mp3ResetRunsToItsEnd : Obligations.Mp3ResetRunsToItsEnd := by
  unfold Obligations.Mp3ResetRunsToItsEnd
  intro s turn idle
  obtain ⟨-, -, issue⟩ := exec_unchecked_host turn
  have unit : ∀ {u : State}, u.env.turn = .mp3Unit → exec .mp3Reset u = .next (runMp3Reset u) :=
    fun turn => (exec_mp3Unit turn).2.2
  refine ⟨acceptMp3 (.reset false) s, _, _, ?_, (unit rfl).trans (congrArg _ (runMp3Reset_pulse rfl rfl)),
    (unit rfl).trans (congrArg _ (runMp3Reset_complete rfl rfl)), ?_, rfl⟩
  · rw [issue, (issueMp3_idle idle _).2]
  · simp [completeMp3, mp3Goto, pulseIdec, acceptMp3, atTurn, resetCommit, traceZero, idle]

end Sys2Proof.Machine
end

section
/-! SUPPORT. The turns in a run (60_exceptions.md R142): the schedule of a tick is worked through to its last turn, which
is the one that fairness gives, so each agent of `fairAgent` moves again and again. -/

namespace Sys2Proof.Machine

/-- A step works off one turn of the schedule. -/
theorem step_scheduled {s t : State} {a : Agent} {rest : List Agent} (next : step s = .next t)
    (sched : s.env.sched = a :: rest) :
    (takeTurn s).env.turn = a ∧ t.env.sched = rest ∧ t.env.tick = s.env.tick := by
  obtain ⟨-, hsched, htick⟩ := agentMove_turns next
  rcases takeTurn_cases s with ⟨a', rest', turn, left, ⟨same, tick⟩ | ⟨empty, -⟩⟩
  · obtain ⟨rfl, rfl⟩ := List.cons.inj (sched.symm.trans same)
    exact ⟨turn, hsched.trans left, htick.trans tick⟩
  · cases sched.symm.trans empty

/-- With no turn left, a step begins the next tick. -/
theorem step_newTick {s t : State} (next : step s = .next t) (sched : s.env.sched = []) :
    ∃ a rest, tickTurns s.env.tick = a :: rest ∧ (takeTurn s).env.turn = a ∧ t.env.sched = rest
      ∧ t.env.tick = s.env.tick + 1 := by
  obtain ⟨-, hsched, htick⟩ := agentMove_turns next
  rcases takeTurn_cases s with ⟨a, rest, turn, left, ⟨same, -⟩ | ⟨-, turns, tick⟩⟩
  · cases sched.symm.trans same
  · exact ⟨a, rest, turns, turn, hsched.trans left, htick.trans tick⟩

/-- A schedule comes to its last turn, within its tick. -/
theorem IsRun.lastTurn {r : Nat → State} (run : IsRun r) {a : Agent} (l : List Agent) :
    ∀ n, (r n).env.sched = l ++ [a] →
      ∃ m, n ≤ m ∧ (takeTurn (r m)).env.turn = a ∧ (r (m + 1)).env.sched = []
        ∧ (r (m + 1)).env.tick = (r n).env.tick := by
  induction l with
  | nil =>
    intro n sched
    obtain ⟨turn, empty, tick⟩ := step_scheduled (run n) sched
    exact ⟨n, le_rfl, turn, empty, tick⟩
  | cons b l ih =>
    intro n sched
    obtain ⟨-, left, tick⟩ := step_scheduled (run n) sched
    obtain ⟨m, later, turn, empty, tick'⟩ := ih (n + 1) left
    exact ⟨m, Nat.le_of_succ_le later, turn, empty, tick'.trans tick⟩

/-- A tick gives its fair agent a turn, its last one. -/
theorem IsRun.fairTurn {r : Nat → State} (run : IsRun r) {n : Nat} (sched : (r n).env.sched = []) :
    ∃ m, n ≤ m ∧ (takeTurn (r m)).env.turn = fairAgent (r n).env.tick ∧ (r (m + 1)).env.sched = []
      ∧ (r (m + 1)).env.tick = (r n).env.tick + 1 := by
  obtain ⟨a, rest, turns, turn, left, tick⟩ := step_newTick (run n) sched
  obtain ⟨l, ends⟩ := tickTurns_ends (r n).env.tick
  cases l with
  | nil =>
    obtain ⟨rfl, rfl⟩ := List.cons.inj (turns.symm.trans ends)
    exact ⟨n, le_rfl, turn, left, tick⟩
  | cons b l =>
    obtain ⟨-, rfl⟩ := List.cons.inj (turns.symm.trans ends)
    obtain ⟨m, later, turn', empty, tick'⟩ := run.lastTurn l (n + 1) left
    exact ⟨m, Nat.le_of_succ_le later, turn', empty, tick'.trans tick⟩

/-- Every tick comes, however many turns the ticks before it name. -/
theorem IsRun.reachesTick {r : Nat → State} (run : IsRun r) (n d : Nat) :
    ∃ m, n ≤ m ∧ (r m).env.sched = [] ∧ (r m).env.tick = (r n).env.tick + d := by
  induction d with
  | zero =>
    rcases List.eq_nil_or_concat (r n).env.sched with empty | ⟨l, a, sched⟩
    · exact ⟨n, le_rfl, empty, rfl⟩
    · obtain ⟨m, later, -, empty, tick⟩ := run.lastTurn l n (sched.trans (List.concat_eq_append ..))
      exact ⟨m + 1, Nat.le_succ_of_le later, empty, tick⟩
  | succ d ih =>
    obtain ⟨m, later, sched, tick⟩ := ih
    obtain ⟨k, later', -, empty, tick'⟩ := run.fairTurn sched
    exact ⟨k + 1, Nat.le_succ_of_le (later.trans later'), empty, by omega⟩

/-- Each fair agent moves again and again: its tick comes round every fourth time. -/
theorem IsRun.turnComes {r : Nat → State} (run : IsRun r) (c n : Nat) :
    ∃ m, n ≤ m ∧ (takeTurn (r m)).env.turn = fairAgent c := by
  have periodic : ∀ tick, fairAgent (tick + (3 * tick + c)) = fairAgent c := fun tick => by
    have : (tick + (3 * tick + c)) % 4 = c % 4 := by omega
    rw [fairAgent, this]
    rfl
  obtain ⟨m, later, sched, tick⟩ := run.reachesTick n (3 * (r n).env.tick + c)
  obtain ⟨k, later', turn, -⟩ := run.fairTurn sched
  exact ⟨k, later.trans later', by rw [turn, tick, periodic]⟩

/-- The invariant holds all along a run that starts in it. -/
theorem IsRun.inv {r : Nat → State} (run : IsRun r) (start : (r 0).Inv) : ∀ n, (r n).Inv
  | 0 => start
  | n + 1 => everyStepKeepsTheInvariant (r n) (r (n + 1)) (run.inv start n) (run n)

/-- No number-valued measure falls for ever. -/
theorem not_falling_forever {f : Nat → Nat} {n : Nat} (falls : ∀ k, n ≤ k → ∃ i, k ≤ i ∧ f i < f k) : False := by
  have never : ∀ v k, n ≤ k → f k = v → False := fun v => by
    induction v using Nat.strong_induction_on with
    | h v ih =>
      rintro k later rfl
      obtain ⟨i, after, less⟩ := falls k later
      exact ih (f i) less i (later.trans after) rfl
  exact never _ n le_rfl rfl

end Sys2Proof.Machine
end

section
/-! SUPPORT. An MP3 command comes to its end (40_mp3_bootstrap.md R83, R88; 60_exceptions.md R142): the step that it needs
next lowers `mp3Measure`, no other step raises it, and that step's agent moves again and again. -/

namespace Sys2Proof.Machine

/-! ### The measure, position by position -/

theorem mp3Measure_idle {u : Mp3Unit} (idle : u.run = none) : mp3Measure u = 0 := by
  simp only [mp3Measure, idle]

theorem mp3Measure_reset {u : Mp3Unit} {run : Mp3Run} {pulsed : Bool} (running : u.run = some run)
    (seq : run.seq = .reset pulsed) : mp3Measure u = if pulsed then 1 else 2 := by
  cases pulsed with
  | false | true => simp [mp3Measure, running, seq]

theorem mp3Measure_call {u : Mp3Unit} {run : Mp3Run} {fmt : Fmt} {b : Boot} (running : u.run = some run)
    (seq : run.seq = .decode fmt (.call b)) : mp3Measure u = 3 * bstCalls b.bst + 1 := by
  simp only [mp3Measure, running, seq]

theorem mp3Measure_pending {u : Mp3Unit} {run : Mp3Run} {fmt : Fmt} {b : Boot} {q : IdecReq}
    (running : u.run = some run) (seq : run.seq = .decode fmt (.wait b)) (port : u.idecPort = .pending q) :
    mp3Measure u = 3 * bstCalls b.bst := by
  simp only [mp3Measure, running, seq, port]

theorem mp3Measure_answered {u : Mp3Unit} {run : Mp3Run} {fmt : Fmt} {b : Boot} {a : Word × Bool}
    (running : u.run = some run) (seq : run.seq = .decode fmt (.wait b)) (port : u.idecPort = .answered a) :
    mp3Measure u = 3 * bstCalls b.bst - 1 := by
  simp only [mp3Measure, running, seq, port]

theorem mp3Measure_finish {u : Mp3Unit} {run : Mp3Run} {fmt : Fmt} {b : Boot} {n : Word} (running : u.run = some run)
    (seq : run.seq = .decode fmt (.finish b n)) : mp3Measure u = 1 := by
  simp only [mp3Measure, running, seq]

/-- Each call leaves fewer calls to make (40_mp3_bootstrap.md R83). -/
theorem bstCalls_bootNext_lt {b : Bst} (going : b ≠ .done) (n : Word) (hp : Bool) :
    bstCalls (bootNext b n hp) < bstCalls b := by
  cases b with
  | init | head => unfold bootNext; split_ifs <;> decide
  | frame => exact Nat.one_pos
  | done => exact absurd rfl going

/-- Where a call is to be made or waited for, BST is not `done`. -/
theorem BootOk.calls_pos {run : Mp3Run} {b : Boot} (h : BootOk run b) : b.bst ≠ .done ∧ 0 < bstCalls b.bst := by
  rcases h with rfl | ⟨-, rfl⟩ | ⟨-, rfl⟩ | ⟨-, rfl⟩ <;> decide

theorem mp3Goto_run_some {s : State} {run : Mp3Run} (running : s.mp3.run = some run) (seq : Mp3Seq) :
    (mp3Goto seq s).mp3.run = some { run with seq := seq } := by
  rw [mp3Goto_running running]

/-- An answer taken leads nearer to the end: to `finish`, or to a call of a later BST. -/
theorem takeAnswer_nearer {s : State} {run : Mp3Run} {fmt : Fmt} {b : Boot} {n : Word} {hp : Bool}
    (boot : BootOk run b) (running : s.mp3.run = some run) (seq : run.seq = .decode fmt (.wait b))
    (port : s.mp3.idecPort = .answered (n, hp)) :
    mp3Measure (takeAnswer fmt run b n hp s).mp3 < mp3Measure s.mp3 := by
  obtain ⟨going, calls⟩ := boot.calls_pos
  have moved : (takeAnswer fmt run b n hp s).mp3.run
      = some { run with seq := .decode fmt (posAfter run (bootAfter run b n hp) n) } :=
    mp3Goto_run_some (s := { s with mp3 := { s.mp3 with idecPort := .idle } }) running _
  rw [mp3Measure_answered running seq port]
  by_cases ends : run.lenA = 0 ∨ (bootAfter run b n hp).bst = .done
  · rw [posAfter, if_pos ends] at moved
    rw [mp3Measure_finish moved rfl]
    omega
  · have next : (bootAfter run b n hp).bst = bootNext b.bst n hp := if_neg (not_or.1 ends).1
    have fewer := bstCalls_bootNext_lt going n hp
    rw [posAfter, if_neg ends] at moved
    rw [mp3Measure_call moved rfl, next]
    omega

/-! ### The unit's own steps -/

theorem mp3Move_decode {s : State} {run : Mp3Run} {fmt : Fmt} {pos : DecPos} (turn : s.env.turn = .mp3Unit)
    (running : s.mp3.run = some run) (seq : run.seq = .decode fmt pos) : mp3Move s = .next (runDecode fmt s) := by
  have command : mp3Command run = decodeInstr fmt := by
    cases fmt with
    | s16 | f32 => simp only [mp3Command, seq, decodeInstr]
  simp only [mp3Move, running]
  rw [command, exec_decodeInstr_mp3Unit turn]

theorem mp3Move_reset {s : State} {run : Mp3Run} {pulsed : Bool} (turn : s.env.turn = .mp3Unit)
    (running : s.mp3.run = some run) (seq : run.seq = .reset pulsed) : mp3Move s = .next (runMp3Reset s) := by
  have command : mp3Command run = .mp3Reset := by simp only [mp3Command, seq]
  simp only [mp3Move, running]
  rw [command, (exec_mp3Unit turn).2.2]

/-- A unit that waits for an answer takes no step (60_exceptions.md R140). -/
theorem mp3Move_waiting {s : State} (ok : Mp3Ok s.mp3) (turn : s.env.turn = .mp3Unit) (waits : mp3Waits s.mp3) :
    mp3Move s = .next s := by
  obtain ⟨q, port⟩ := waits
  obtain ⟨run, fmt, b, running, seq⟩ := ok.of_idecPending port
  rw [mp3Move_decode turn running seq]
  simp only [runDecode, running, seq, port, if_true]

/-- A busy unit that waits for nothing comes nearer to its end. -/
theorem mp3Move_nearer {s : State} (ok : Mp3Ok s.mp3) (turn : s.env.turn = .mp3Unit) (busy : mp3Busy s.mp3 = true)
    (quiet : ¬mp3Waits s.mp3) : ∃ t, mp3Move s = .next t ∧ mp3Measure t.mp3 < mp3Measure s.mp3 := by
  obtain ⟨run, running⟩ := Option.isSome_iff_exists.1 busy
  cases seq : run.seq with
  | reset pulsed =>
    rw [mp3Move_reset turn running seq, mp3Measure_reset running seq]
    refine ⟨_, rfl, ?_⟩
    cases pulsed with
    | false =>
      rw [runMp3Reset_pulse running seq, mp3Measure_reset (mp3Goto_run_some (s := pulseIdec s) running _) rfl]
      decide
    | true =>
      rw [runMp3Reset_complete running seq, mp3Measure_idle rfl]
      decide
  | decode fmt pos =>
    obtain ⟨-, position⟩ := ok.decode running seq
    rw [mp3Move_decode turn running seq]
    refine ⟨_, rfl, ?_⟩
    cases pos with
    | call b =>
      rw [runDecode_call running seq, mp3Measure_call running seq,
        mp3Measure_pending (mp3Goto_run_some (s := postIdec _ s) running _) rfl rfl]
      exact Nat.lt_succ_self _
    | wait b =>
      obtain ⟨boot, port | ⟨⟨n, hp⟩, port⟩⟩ := position
      · exact absurd ⟨_, port⟩ quiet
      · rw [runDecode_answered running seq port]
        exact takeAnswer_nearer boot running seq port
    | finish b n =>
      rw [runDecode_finish running seq, mp3Measure_finish running seq, mp3Measure_idle rfl]
      exact Nat.one_pos

/-- The unit's step ends BUSY only with DONE (60_exceptions.md R132). -/
theorem mp3Move_done {s t : State} (next : mp3Move s = .next t) (busy : mp3Busy s.mp3 = true)
    (idle : mp3Busy t.mp3 = false) : t.mp3.done = true := by
  rcases (mp3Exec_of_mp3Move next).flags with ⟨-, kept⟩ | ⟨-, -, done, -⟩
  · exact absurd (idle.symm.trans (kept busy)) Bool.false_ne_true
  · exact done

/-! ### The inner decoder's step -/

/-- The answer to a waiting call brings its command nearer to its end, and ends no command. -/
theorem innerDecoderMove_nearer {s : State} (ok : Mp3Ok s.mp3) (waits : mp3Waits s.mp3) :
    mp3Measure (innerDecoderMove s).mp3 < mp3Measure s.mp3 ∧ (innerDecoderMove s).mp3.run = s.mp3.run := by
  obtain ⟨q, port⟩ := waits
  obtain ⟨run, fmt, b, running, seq⟩ := ok.of_idecPending port
  obtain ⟨-, boot, -⟩ := ok.decode running seq
  obtain ⟨-, calls⟩ := boot.calls_pos
  obtain ⟨n, hp, ws, answer⟩ := innerDecoderMove_pending port
  have kept : (innerDecoderMove s).mp3.run = s.mp3.run := by rw [answer]
  have answered : (innerDecoderMove s).mp3.idecPort = .answered (n, hp) := by rw [answer]
  rw [mp3Measure_pending running seq port, mp3Measure_answered (kept.trans running) seq answered]
  exact ⟨by omega, kept⟩

/-! ### Every step of a run -/

/-- The MP3 unit's command and its port are the same in both states. -/
def Mp3Still (s t : State) : Prop := t.mp3.run = s.mp3.run ∧ t.mp3.idecPort = s.mp3.idecPort

theorem Mp3Still.of_eq {s t : State} (h : t.mp3 = s.mp3) : Mp3Still s t := by
  unfold Mp3Still
  rw [h]
  exact ⟨rfl, rfl⟩

theorem Mp3Still.trans {s t u : State} (h : Mp3Still s t) (g : Mp3Still t u) : Mp3Still s u :=
  ⟨g.1.trans h.1, g.2.trans h.2⟩

theorem Mp3Still.measure {s t : State} (h : Mp3Still s t) : mp3Measure t.mp3 = mp3Measure s.mp3 := by
  unfold mp3Measure
  rw [h.1, h.2]

theorem Mp3Still.waits {s t : State} (h : Mp3Still s t) : mp3Waits t.mp3 ↔ mp3Waits s.mp3 := by
  unfold mp3Waits
  rw [h.2]

/-- No write to the window touches a running MP3 command (60_exceptions.md R128). -/
theorem WindowEffect.mp3Still {s t : State} (h : WindowEffect s t) (turn : s.env.turn = .host)
    (busy : mp3Busy s.mp3 = true) : Mp3Still s t := by
  cases h with
  | command i t next =>
    cases unit : i.unit with
    | vad => exact .of_eq (vadExec_of_exec unit next).rest.1
    | mp3 =>
      cases mp3Exec_of_exec unit next with
      | accepts seq host idle =>
        rw [mp3Busy, idle] at busy
        exact absurd busy Bool.false_ne_true
      | call run fmt b own | answer run fmt b n hp own | finish run fmt b n own | resetPulse run own
      | resetEnd run own => exact Agent.noConfusion (turn.symm.trans own)
      | nothing | overruns | rejects => exact ⟨rfl, rfl⟩
  | overruns u | rejects u =>
    cases u with
    | vad | mp3 => exact ⟨rfl, rfl⟩
  | nothing | vadStatus | mp3Status | vadArgs | mp3Args | irqEnable => exact ⟨rfl, rfl⟩

theorem step_mp3Unit {s : State} (turn : (takeTurn s).env.turn = .mp3Unit) : step s = mp3Move (takeTurn s) := by
  simp only [step, agentMove, turn]

/-- The unit's turn brings a command that waits for nothing nearer to its end. -/
theorem step_mp3_nearer {s t : State} (ok : Mp3Ok s.mp3) (next : step s = .next t) (busy : mp3Busy s.mp3 = true)
    (turn : (takeTurn s).env.turn = .mp3Unit) (quiet : ¬mp3Waits s.mp3) :
    mp3Measure t.mp3 < mp3Measure s.mp3 := by
  rw [step_mp3Unit turn] at next
  rw [← takeTurn_mp3 s] at ok busy quiet ⊢
  obtain ⟨t', moved, nearer⟩ := mp3Move_nearer ok turn busy quiet
  rw [next_inj.1 (moved.symm.trans next)]
  exact nearer

/-- Another agent's step leaves the command and its port as they are, but for the inner decoder's answer and the reset. -/
theorem AgentEffect.mp3_still_or_nearer {s t : State} (h : AgentEffect s t) (ok : Mp3Ok s.mp3)
    (other : s.env.turn ≠ .mp3Unit) (before : mp3Busy s.mp3 = true) (after : mp3Busy t.mp3 = true) :
    Mp3Still s t ∨ mp3Measure t.mp3 < mp3Measure s.mp3 := by
  cases h with
  | host t turn effect =>
    cases effect with
    | window t effect => exact .inl (effect.mp3Still (s := popHostOp s) turn before)
    | outside t hvad hmp3 => exact .inl (.of_eq hmp3)
    | reset => exact absurd after Bool.false_ne_true
  | vadUnit t turn effect => exact .inl (.of_eq effect.rest.1)
  | mp3Unit t turn => exact absurd turn other
  | hostMemory => exact .inl (.of_eq (memoryMove_rest s).1)
  | innerVad => exact .inl (.of_eq (innerVadMove_rest s).1)
  | innerDecoder =>
    by_cases waits : mp3Waits s.mp3
    · exact .inr (innerDecoderMove_nearer ok waits).1
    · rcases innerDecoderMove_cases s with same | ⟨q, n, hp, ws, port, -⟩
      · exact .inl (.of_eq (by rw [same]))
      · exact absurd ⟨q, port⟩ waits

/-- A step that leaves the unit BUSY leaves the command and its port as they are, or brings it nearer to its end. -/
theorem step_mp3_still_or_nearer {s t : State} (ok : Mp3Ok s.mp3) (next : step s = .next t)
    (before : mp3Busy s.mp3 = true) (after : mp3Busy t.mp3 = true) :
    Mp3Still s t ∨ mp3Measure t.mp3 < mp3Measure s.mp3 := by
  have taken : (takeTurn s).mp3 = s.mp3 := takeTurn_mp3 s
  by_cases own : (takeTurn s).env.turn = .mp3Unit
  · by_cases waits : mp3Waits s.mp3
    · rw [step_mp3Unit own, mp3Move_waiting (taken ▸ ok) own (taken ▸ waits)] at next
      exact .inl (.of_eq (by rw [next_inj.1 next, taken]))
    · exact .inr (step_mp3_nearer ok next before own waits)
  · have effect := (step_effect next).mp3_still_or_nearer (taken ▸ ok) own (taken ▸ before) after
    unfold Mp3Still at effect ⊢
    rwa [taken] at effect

/-- While the unit stays BUSY, the command and its port stand still, or it has come nearer to its end. -/
theorem IsRun.mp3_still_or_nearer {r : Nat → State} (run : IsRun r) (inv : ∀ i, (r i).Inv) {k j : Nat} (later : k ≤ j)
    (busy : ∀ i, k ≤ i → mp3Busy (r i).mp3 = true) :
    Mp3Still (r k) (r j) ∨ ∃ i, k ≤ i ∧ mp3Measure (r i).mp3 < mp3Measure (r k).mp3 := by
  induction j, later using Nat.le_induction with
  | base => exact .inl (.of_eq rfl)
  | succ j later ih =>
    rcases ih with still | nearer
    · rcases step_mp3_still_or_nearer (inv j).mp3 (run j) (busy j later) (busy (j + 1) (Nat.le_succ_of_le later)) with
        step | less
      · exact .inl (still.trans step)
      · exact .inr ⟨j + 1, Nat.le_succ_of_le later, still.measure ▸ less⟩
    · exact .inr nearer

/-- The MP3 unit is the fair agent of every fourth tick, so its turn comes again and again. -/
theorem IsRun.mp3UnitTurn {r : Nat → State} (run : IsRun r) (n : Nat) :
    ∃ m, n ≤ m ∧ (takeTurn (r m)).env.turn = .mp3Unit :=
  run.turnComes 2 n

/-- A command whose waits end comes nearer to its end: where it waits for nothing, its unit's next turn is a step of
it. -/
theorem IsRun.mp3_nearer {r : Nat → State} (run : IsRun r) (inv : ∀ i, (r i).Inv) {k : Nat}
    (busy : ∀ i, k ≤ i → mp3Busy (r i).mp3 = true)
    (answered : mp3Waits (r k).mp3 → ∃ m, k ≤ m ∧ ¬mp3Waits (r m).mp3) :
    ∃ i, k ≤ i ∧ mp3Measure (r i).mp3 < mp3Measure (r k).mp3 := by
  obtain ⟨j, later, quiet⟩ : ∃ j, k ≤ j ∧ ¬mp3Waits (r j).mp3 := by
    by_cases waits : mp3Waits (r k).mp3
    · exact answered waits
    · exact ⟨k, le_rfl, waits⟩
  obtain ⟨i, after, turn⟩ := run.mp3UnitTurn j
  have busyFrom : ∀ i, j ≤ i → mp3Busy (r i).mp3 = true := fun i after => busy i (later.trans after)
  rcases run.mp3_still_or_nearer inv later busy with still | nearer
  · rcases run.mp3_still_or_nearer inv after busyFrom with still' | ⟨m, after', nearer⟩
    · have less := step_mp3_nearer (inv i).mp3 (run i) (busyFrom i after) turn (still'.waits.not.2 quiet)
      rw [(still.trans still').measure] at less
      exact ⟨i + 1, Nat.le_succ_of_le (later.trans after), less⟩
    · exact ⟨m, later.trans after', still.measure ▸ nearer⟩
  · exact nearer

/-- An idle unit waits for nothing. -/
theorem Mp3Ok.idle_quiet {u : Mp3Unit} (ok : Mp3Ok u) (idle : mp3Busy u = false) : ¬mp3Waits u := by
  rintro ⟨q, port⟩
  obtain ⟨run, fmt, b, running, -⟩ := ok.of_idecPending port
  rw [mp3Busy, running] at idle
  exact Bool.noConfusion idle

/-- In a run, BUSY ends exactly where every wait ends: while it lasts and the waits end, the measure would fall for
ever. -/
theorem IsRun.mp3_ends_iff {r : Nat → State} (run : IsRun r) (inv : ∀ i, (r i).Inv) (n : Nat) :
    (∃ m, n ≤ m ∧ mp3Busy (r m).mp3 = false)
      ↔ ∀ k, n ≤ k → (∀ j, n ≤ j → j ≤ k → mp3Busy (r j).mp3 = true) → mp3Waits (r k).mp3 →
        ∃ m, k ≤ m ∧ ¬mp3Waits (r m).mp3 := by
  constructor
  · rintro ⟨m, later, idle⟩ k _ busy _
    rcases le_total k m with after | before
    · exact ⟨m, after, (inv m).mp3.idle_quiet idle⟩
    · exact absurd (idle.symm.trans (busy m later before)) Bool.false_ne_true
  · intro answered
    by_contra never
    have busy : ∀ i, n ≤ i → mp3Busy (r i).mp3 = true := fun i later =>
      Bool.of_not_eq_false fun idle => never ⟨i, later, idle⟩
    exact not_falling_forever (f := fun k => mp3Measure (r k).mp3) fun k later =>
      run.mp3_nearer inv (fun i after => busy i (later.trans after)) (answered k later fun j from_n _ => busy j from_n)

/-- The agent whose step a BUSY unit needs brings its command nearer to its end, and ends BUSY only with DONE. -/
theorem mp3Mover_nearer {s : State} (ok : Mp3Ok s.mp3) (busy : mp3Busy s.mp3 = true)
    (turn : s.env.turn = mp3Mover s.mp3) :
    ∃ t, agentMove s = .next t ∧ mp3Measure t.mp3 < mp3Measure s.mp3
      ∧ (mp3Busy t.mp3 = false → t.mp3.done = true) := by
  by_cases waits : mp3Waits s.mp3
  · have decoder : s.env.turn = .innerDecoder := by
      obtain ⟨q, port⟩ := waits
      rw [turn, mp3Mover, port]
    obtain ⟨nearer, kept⟩ := innerDecoderMove_nearer ok waits
    refine ⟨innerDecoderMove s, by rw [agentMove, decoder], nearer, fun idle => ?_⟩
    rw [mp3Busy, kept] at idle
    exact absurd (idle.symm.trans busy) Bool.false_ne_true
  · have unit : s.env.turn = .mp3Unit := by
      rw [turn, mp3Mover]
      split
      · next q port => exact absurd ⟨q, port⟩ waits
      · rfl
    obtain ⟨t, next, nearer⟩ := mp3Move_nearer ok unit busy waits
    exact ⟨t, by rw [agentMove, unit, next], nearer, mp3Move_done next busy⟩

/-- Settles O57: the needed step lowers the measure, the unit's turn comes again and again, and so a run that answers
every call ends the command. -/
theorem mp3CommandComesToItsEnd : Obligations.Mp3CommandComesToItsEnd := by
  unfold Obligations.Mp3CommandComesToItsEnd
  exact ⟨fun s inv busy turn => mp3Mover_nearer inv.mp3 busy turn, fun r run n => run.mp3UnitTurn n,
    fun r run start n _ => run.mp3_ends_iff (run.inv start) n⟩

end Sys2Proof.Machine
end

section
/-! SUPPORT. The frame assembler (41_vad_frame_assembler.md R99 to R105; 43_vad_session.md R119, R120): a pass of the
iterator loop branch by branch, the sample it fills, the frame it sends, and the verdict it counts. -/

namespace Sys2Proof.Machine

/-! ### A pass of the loop -/

/-- The VAD unit's sequencer moves within the running command (10_state.md R43). -/
theorem vadGoto_running {s : State} {run : VadRun} (running : s.vad.run = some run) (seq : VadSeq) :
    vadGoto seq s = { s with vad := { s.vad with run := some { run with seq := seq } } } := by
  rw [vadGoto, running]
  rfl

/-- From the loop head, the unit's step is one pass of the loop (41_vad_frame_assembler.md R100; log 3). -/
theorem exec_vadProcess_head {s u : State} {run : VadRun} {w : ProcWork} (turn : s.env.turn = .vadUnit)
    (running : s.vad.run = some run) (head : AtHead s run w u) : exec .vadProcess s = iterate w u := by
  rw [(exec_vadUnit turn).2.2]
  cases head with
  | start rate flen seq checked => simp only [runVadProcess, running, seq, checked]; rfl
  | verdict w seq => simp only [runVadProcess, running, seq]
  | sample w word seq answered inside =>
    have taken : runVadProcess s = takeSample w word s := by simp only [runVadProcess, running, seq, answered]
    exact taken.trans (if_pos inside)

/-- Step 1 of the loop: a full frame is requested (41_vad_frame_assembler.md R100, R102). -/
theorem iterate_full {w : ProcWork} (full : w.flen.toNat ≤ w.off) (s : State) :
    iterate w s = .next (vadGoto (.process (.ivadWait w)) (postIvad (frameRequest w s.vad) s)) := by
  rw [iterate, if_pos full]

/-- Step 3 of the loop: with room and input left, the next sample is read (41_vad_frame_assembler.md R100, R101). -/
theorem iterate_reads {w : ProcWork} (room : w.off < w.flen.toNat) (left : 0 < w.rem) (aligned : w.p % 4 = 0)
    (inside : w.p + 4 ≤ addressTop) (s : State) :
    iterate w s = .next (vadGoto (.process (.memWait w)) (postMem (BitVec.ofNat 32 w.p) s)) := by
  rw [iterate, if_neg (Nat.not_le.2 room), if_neg left.ne', if_pos ⟨aligned, inside⟩]

/-- The way to the loop head leaves the command and the mode. -/
theorem AtHead.keeps_run {s u : State} {run : VadRun} {w : ProcWork} (head : AtHead s run w u)
    (running : s.vad.run = some run) : u.vad.run = some run ∧ u.vad.mode = s.vad.mode := by
  obtain ⟨rb, port, log, rfl⟩ := atHead_state head
  exact ⟨running, rfl⟩

/-- Settles O16: the step is a pass of the loop, which comes to its third step. -/
theorem iteratorReadsTheNextSample : Obligations.IteratorReadsTheNextSample := by
  unfold Obligations.IteratorReadsTheNextSample
  intro s u run w turn running head room left aligned inside
  obtain ⟨running', -⟩ := head.keeps_run running
  rw [exec_vadProcess_head turn running head, iterate_reads room left aligned inside,
    vadGoto_running (s := postMem _ u) running']
  rfl

/-! ### The ring -/

theorem ringRead_congr {u v : VadUnit} (hrb : v.rb = u.rb) (hepoch : v.rbEpoch = u.rbEpoch) (k : Nat) :
    ringRead v k = ringRead u k := by
  rw [ringRead, ringRead, hrb, hepoch]

/-- RB after a sample is filled (41_vad_frame_assembler.md R101). -/
theorem ringRead_fillSample (w : ProcWork) (word : Word) (s : State) (k : Nat) :
    ringRead (fillSample w word s).vad k = if k = w.off then quant word else ringRead s.vad k := by
  rw [ringRead, fillSample_vad_rb, cellGet_set]
  split <;> rfl

/-- A pass of the loop writes no element of RB. -/
theorem iterate_ring {w : ProcWork} {s t : State} (h : iterate w s = .next t) :
    t.vad.rb = s.vad.rb ∧ t.vad.rbEpoch = s.vad.rbEpoch := by
  rcases iterate_cases h with ⟨-, rfl⟩ | ⟨-, -, rfl⟩ | ⟨-, -, -, -, rfl⟩ <;> exact ⟨rfl, rfl⟩

/-- Settles O17: the ring after the step is the one the sample was filled into, as a pass of the loop writes none. -/
theorem sampleGoesQuantizedIntoTheRing : Obligations.SampleGoesQuantizedIntoTheRing := by
  unfold Obligations.SampleGoesQuantizedIntoTheRing
  rintro s run w _ word turn running seq answered inside rfl domain
  obtain ⟨t, pass⟩ := iterate_goes (w := workAfterSample w) (fillSample w word s) domain
  obtain ⟨ring, epoch⟩ := iterate_ring pass
  have reads : ∀ k, ringRead t.vad k = if k = w.off then quant word else ringRead s.vad k := fun k =>
    (ringRead_congr ring epoch k).trans (ringRead_fillSample w word s k)
  refine ⟨t, fillSample w word s, ?_, pass, ?_, ?_, fun k other => ?_⟩
  · exact (exec_vadProcess_head turn running (.sample w word seq answered inside)).trans pass
  · rw [ring]
    rfl
  · rw [reads, if_pos rfl]
  · rw [reads, if_neg other]

/-! ### Frames -/

theorem frameRequest_samples_length (w : ProcWork) (u : VadUnit) :
    (frameRequest w u).samples.length = w.flen.toNat := by
  simp [frameRequest, ringPrefix]

/-- A frame is the ring's first elements (41_vad_frame_assembler.md R102). -/
theorem frameRequest_sample {w : ProcWork} {k : Nat} (hk : k < w.flen.toNat) (u : VadUnit) :
    (frameRequest w u).samples[k]? = some (ringRead u k) := by
  simp [frameRequest, ringPrefix, hk]

/-- Settles O18: the step is a pass of the loop, whose first step is the request, before the rest is looked at. -/
theorem fullFrameIsSentFirst : Obligations.FullFrameIsSentFirst := by
  unfold Obligations.FullFrameIsSentFirst
  intro s u run w turn running head full
  obtain ⟨running', mode⟩ := head.keeps_run running
  refine ⟨frameRequest w u.vad, ?_, mode, rfl, rfl, frameRequest_samples_length w u.vad,
    fun k hk => frameRequest_sample hk u.vad⟩
  rw [exec_vadProcess_head turn running head, iterate_full full, vadGoto_running (s := postIvad _ u) running']
  rfl

/-- Settles O23: the waiting request is the frame at the unit's position, whose elements the invariant knows. -/
theorem framesHoldTheQuantizedStream : Obligations.FramesHoldTheQuantizedStream := by
  unfold Obligations.FramesHoldTheQuantizedStream
  intro s run w r inv running seq pending
  obtain ⟨-, work, full, -, request | ⟨code, answered⟩⟩ := inv.vad.process running seq
  · cases pending.symm.trans request
    refine ⟨frameRequest_samples_length w s.vad, fun k hk reached => ?_⟩
    obtain ⟨e, read, filled⟩ := work.filled k (full ▸ hk) reached
    exact ⟨e, read, by rw [frameRequest_sample hk, ringRead, filled, Option.getD_some]⟩
  · cases pending.symm.trans answered

/-! ### Verdicts -/

/-- The inner VAD's answer: the next one supplied from outside, else the oracle's (43_vad_session.md R120; log 17). -/
theorem innerVadMove_pending {s : State} {r : IvadReq} (port : s.vad.ivadPort = .pending r) :
    innerVadMove s = { s with
      vad := { s.vad with
        ivadPort := .answered (s.env.ivadAnswers.headD (Config.ivad s.vad.ivadLog r))
        ivadLog := .answer (s.env.ivadAnswers.headD (Config.ivad s.vad.ivadLog r)) :: s.vad.ivadLog }
      env := { s.env with ivadAnswers := s.env.ivadAnswers.tail } } := by
  simp only [innerVadMove, port]

/-- Without a request the inner VAD takes no step (60_exceptions.md R140). -/
theorem innerVadMove_quiet {s : State} (quiet : ∀ r, s.vad.ivadPort ≠ .pending r) : innerVadMove s = s := by
  rcases innerVadMove_cases s with same | ⟨r, code, port, -⟩
  · exact same
  · exact absurd port (quiet r)

/-- With its verdict on the port, the unit's step counts it (41_vad_frame_assembler.md R102). -/
theorem runVadProcess_verdict {s : State} {run : VadRun} {w : ProcWork} {code : BitVec 2}
    (running : s.vad.run = some run) (seq : run.seq = .process (.ivadWait w))
    (answered : s.vad.ivadPort = .answered code) : runVadProcess s = .next (takeVerdict w code s) := by
  simp only [runVadProcess, running, seq, answered]

/-- Settles O19: the port's answer is the supplied one or the oracle's, and `countVerdict` has a bucket for each
code. -/
theorem verdictIsCountedAndTheLoopGoesOn : Obligations.VerdictIsCountedAndTheLoopGoesOn := by
  unfold Obligations.VerdictIsCountedAndTheLoopGoesOn
  refine ⟨fun s r port => ?_, fun s => innerVadMove_quiet, fun s run w code turn running seq answered => ?_⟩
  · exact ⟨_, innerVadMove_pending port, fun c rest supplied => by rw [supplied]; rfl,
      fun empty => by rw [empty]; rfl⟩
  · refine ⟨countVerdict w.hist code, ?_, ?_, ?_, ?_, ?_⟩
    · rw [(exec_vadUnit turn).2.2, runVadProcess_verdict running seq answered, takeVerdict,
        vadGoto_running (s := { s with vad := { s.vad with ivadPort := .idle } }) running]
      rfl
    · rintro rfl; rfl
    · rintro rfl; rfl
    · rintro rfl; rfl
    · rintro rfl; rfl

end Sys2Proof.Machine
end

section
/-! SUPPORT. The quantizer (41_vad_frame_assembler.md R96, R98): off NaN, QUANT is one function of a pattern's value
times 2^149, an integer, and its properties are that function's. -/

namespace Sys2Proof.Machine

/-! ### QUANT of an exact value -/

/-- QUANT of the value `x / 2^149`: as `x * 2^15 / 2^149 = x / 2^134`, that is rounded half away from zero and then
clipped (R96). -/
def quantScaled (x : Int) : Int :=
  if x < 0 then -min ((-x + 2 ^ 133) / 2 ^ 134) 32767 else min ((x + 2 ^ 133) / 2 ^ 134) 32767

theorem quantScaled_range (x : Int) : -32767 ≤ quantScaled x ∧ quantScaled x ≤ 32767 := by
  unfold quantScaled
  split_ifs <;> omega

theorem quantScaled_neg (x : Int) : quantScaled (-x) = -quantScaled x := by
  unfold quantScaled
  split_ifs <;> omega

theorem quantScaled_mono {x y : Int} (h : x ≤ y) : quantScaled x ≤ quantScaled y := by
  unfold quantScaled
  split_ifs <;> omega

theorem quantScaled_eq_zero_iff (x : Int) : quantScaled x = 0 ↔ |x| < 2 ^ 133 := by
  rw [abs_lt]
  unfold quantScaled
  split_ifs <;> omega

/-- The clip begins at 32766.5, where rounding first gives 32767. -/
theorem quantScaled_eq_top_iff (x : Int) : quantScaled x = 32767 ↔ 65533 * 2 ^ 133 ≤ x := by
  unfold quantScaled
  split_ifs <;> omega

theorem quantScaled_eq_bottom_iff (x : Int) : quantScaled x = -32767 ↔ x ≤ -(65533 * 2 ^ 133) := by
  rw [← neg_inj, ← quantScaled_neg, neg_neg, quantScaled_eq_top_iff, le_neg]

/-- Rounding by floor over the rationals is integer division. -/
theorem floor_add_half (y : Int) : ⌊(y : ℚ) / 2 ^ 134 + 1 / 2⌋ = (y + 2 ^ 133) / 2 ^ 134 := by
  have sum : (y : ℚ) / 2 ^ 134 + 1 / 2 = ((y + 2 ^ 133 : ℤ) : ℚ) / ((2 ^ 134 : ℕ) : ℚ) := by
    push_cast
    ring
  rw [sum, Rat.floor_intCast_div_natCast]
  rfl

/-- `quantScaled` is R96's `clamp(sign(v) * floor(|v| + 1/2), -32767, 32767)` at `v = x / 2^134`. -/
theorem quantScaled_eq_clamp (x : Int) :
    quantScaled x = min (max ((if (x : ℚ) / 2 ^ 134 < 0 then -1 else 1) * ⌊|(x : ℚ) / 2 ^ 134| + 1 / 2⌋)
      (-32767)) 32767 := by
  have scale : (0 : ℚ) < 2 ^ 134 := by positivity
  have sign : (x : ℚ) / 2 ^ 134 < 0 ↔ x < 0 := by rw [div_lt_iff₀ scale, zero_mul, Int.cast_lt_zero]
  have size : |(x : ℚ) / 2 ^ 134| = ((|x| : ℤ) : ℚ) / 2 ^ 134 := by rw [abs_div, abs_of_pos scale, Int.cast_abs]
  rw [size, floor_add_half, quantScaled]
  by_cases negative : x < 0
  · rw [if_pos negative, if_pos (sign.2 negative), abs_of_neg negative]
    omega
  · rw [if_neg negative, if_neg (sign.not.2 negative), abs_of_nonneg (Int.not_lt.1 negative)]
    omega

/-! ### QUANT of a pattern -/

theorem signedSample_toInt (negative : Bool) {size : Nat} (h : size ≤ 32767) :
    (signedSample negative size).toInt = if negative then -(size : Int) else size := by
  cases negative with
  | false => exact BitVec.toInt_ofInt_eq_self (by decide) (by omega) (by omega)
  | true => exact BitVec.toInt_ofInt_eq_self (by decide) (by omega) (by omega)

/-- An infinity is quantized as the value beyond the finite ones that its fields would give. -/
theorem roundedScaled_inf {w : Word} (inf : f32IsInf w = true) :
    min (roundedScaled (f32Magnitude w)) 32767 = 32767 := by
  obtain ⟨exp, frac⟩ : f32Exp w = 255 ∧ f32Frac w = 0 := by simpa [f32IsInf] using inf
  rw [f32Magnitude, exp, frac]
  decide

theorem quant_toInt {w : Word} (number : f32IsNaN w = false) : (quant w).toInt = quantScaled (f32Scaled w) := by
  have size : quant w = signedSample (f32Sign w) (min (roundedScaled (f32Magnitude w)) 32767) := by
    by_cases inf : f32IsInf w = true
    · simp only [quant, number, inf, roundedScaled_inf inf, Bool.false_eq_true, if_true, if_false]
    · simp only [quant, number, inf, Bool.false_eq_true, if_false]
  rw [size, signedSample_toInt _ (Nat.min_le_right _ _), f32Scaled, quantScaled, roundedScaled]
  cases f32Sign w with
  | false => simp only [Bool.false_eq_true, if_false]; omega
  | true => simp only [if_true]; split_ifs <;> omega

theorem quant_nan {w : Word} (nan : f32IsNaN w = true) : quant w = 0 := if_pos nan

/-- The value of a pattern, from its integer multiple. -/
theorem f32Rat_eq (w : Word) : f32Rat w = (f32Scaled w : ℚ) / 2 ^ 149 := by
  have magnitude : (f32Magnitude w : ℚ) / 2 ^ 149
      = if f32Exp w = 0 then (f32Frac w : ℚ) * (2 : ℚ) ^ (-149 : ℤ)
        else (8388608 + f32Frac w) * (2 : ℚ) ^ ((f32Exp w : ℤ) - 150) := by
    rw [f32Magnitude]
    split_ifs with subnormal
    · rw [div_eq_mul_inv]
      rfl
    · have exponent : (f32Exp w : ℤ) - 150 = ((f32Exp w - 1 : ℕ) : ℤ) - (149 : ℕ) := by omega
      rw [exponent, zpow_sub₀ two_ne_zero, zpow_natCast, zpow_natCast]
      push_cast
      rw [mul_div_assoc]
  have value : f32Rat w = (if f32Sign w then -1 else 1) * ((f32Magnitude w : ℚ) / 2 ^ 149) := by
    rw [magnitude]
    rfl
  rw [value, f32Scaled]
  cases f32Sign w with
  | false => simp
  | true => simp [neg_div]

/-- Settles O24: off NaN and the infinities QUANT is `quantScaled`, which is the rule's clamp. -/
theorem quantRoundsTheExactProduct : Obligations.QuantRoundsTheExactProduct := by
  unfold Obligations.QuantRoundsTheExactProduct
  intro w
  refine ⟨fun exp frac => quant_nan ?_, fun exp frac => ?_, fun finite => ?_⟩
  · have exp' : f32Exp w = 255 := exp
    have frac' : f32Frac w ≠ 0 := frac
    simp [f32IsNaN, exp', frac']
  · have exp' : f32Exp w = 255 := exp
    have frac' : f32Frac w = 0 := frac
    have inf : quant w = signedSample (f32Sign w) 32767 := by simp [quant, f32IsNaN, f32IsInf, exp', frac']
    rw [inf, signedSample_toInt _ le_rfl]
    rfl
  · have exp : f32Exp w ≠ 255 := finite
    have number : f32IsNaN w = false := by simp [f32IsNaN, exp]
    have product : f32Rat w * 32768 = (f32Scaled w : ℚ) / 2 ^ 134 := by
      rw [f32Rat_eq]
      ring
    rw [quant_toInt number, product, quantScaled_eq_clamp]

/-! ### Signs -/

/-- Flipping the sign bit leaves the exponent and the fraction, and negates the value. -/
theorem f32_flipSign (w : Word) :
    f32IsNaN (w ^^^ 0x80000000) = f32IsNaN w ∧ f32Scaled (w ^^^ 0x80000000) = -f32Scaled w := by
  have exp : f32Exp (w ^^^ 0x80000000) = f32Exp w := by
    rw [f32Exp, BitVec.extractLsb'_xor, (by decide : (0x80000000 : Word).extractLsb' 23 8 = 0#8), BitVec.xor_zero]
    rfl
  have frac : f32Frac (w ^^^ 0x80000000) = f32Frac w := by
    rw [f32Frac, BitVec.extractLsb'_xor, (by decide : (0x80000000 : Word).extractLsb' 0 23 = 0#23), BitVec.xor_zero]
    rfl
  have sign : f32Sign (w ^^^ 0x80000000) = !f32Sign w := by
    rw [f32Sign, BitVec.getLsbD_xor, (by decide : (0x80000000 : Word).getLsbD 31 = true), Bool.xor_true]
    rfl
  refine ⟨by rw [f32IsNaN, f32IsNaN, exp, frac], ?_⟩
  rw [f32Scaled, f32Scaled, f32Magnitude, f32Magnitude, exp, frac, sign]
  cases f32Sign w with
  | false => rfl
  | true => exact (neg_neg _).symm

/-- Settles O25: each property is `quantScaled`'s; a NaN gives 0. -/
theorem quantProperties : Obligations.QuantProperties := by
  unfold Obligations.QuantProperties
  have zero : ∀ w, quant w = 0 ↔ (quant w).toInt = 0 := fun _ => BitVec.toInt_inj.symm
  refine ⟨fun w => ?_, fun w number => ?_, fun v w hv hw below => ?_, fun w => ?_, fun w number => ?_,
    fun w number => ?_, by decide, by decide, by decide, by decide, by decide, by decide⟩
  · cases nan : f32IsNaN w with
    | true => rw [quant_nan nan]; decide
    | false => rw [quant_toInt nan]; exact quantScaled_range _
  · obtain ⟨same, negated⟩ := f32_flipSign w
    rw [quant_toInt (same.trans number), quant_toInt number, negated, quantScaled_neg]
  · rw [quant_toInt hv, quant_toInt hw]
    exact quantScaled_mono below
  · cases nan : f32IsNaN w with
    | true => simp [quant_nan nan]
    | false => rw [zero, quant_toInt nan, quantScaled_eq_zero_iff, or_iff_right Bool.false_ne_true]
  · rw [quant_toInt number, quantScaled_eq_top_iff]
  · rw [quant_toInt number, quantScaled_eq_bottom_iff]

end Sys2Proof.Machine
end

section
/-! SUPPORT. A VAD command comes to its end (41_vad_frame_assembler.md R103; 60_exceptions.md R142): the step that it
needs next lowers `vadMeasure`, no other step raises it, and that step's agent moves again and again once the waits end. -/

namespace Sys2Proof.Machine

/-! ### The measure, position by position -/

theorem vadMeasure_idle {u : VadUnit} (idle : u.run = none) : vadMeasure u = 0 := by
  simp only [vadMeasure, idle]

theorem vadMeasure_init {u : VadUnit} {run : VadRun} {pulsed : Bool} (running : u.run = some run)
    (seq : run.seq = .init pulsed) : vadMeasure u = if pulsed then 1 else 2 := by
  cases pulsed with
  | false | true => simp [vadMeasure, running, seq]

theorem vadMeasure_setmode {u : VadUnit} {run : VadRun} (running : u.run = some run) (seq : run.seq = .setmode) :
    vadMeasure u = 1 := by
  simp only [vadMeasure, running, seq]

/-- Before the rate check the measure is that of the iterator's start, one more than at a loop head. -/
theorem vadMeasure_start {u : VadUnit} {run : VadRun} (running : u.run = some run) (seq : run.seq = .process .start)
    (rate flen : Word) : vadMeasure u = workMeasure (startWork rate flen run u) + 4 := by
  simp only [vadMeasure, running, seq, workMeasure, startWork]

theorem vadMeasure_loop {u : VadUnit} {run : VadRun} {w : ProcWork} (running : u.run = some run)
    (seq : run.seq = .process (.loop w)) : vadMeasure u = workMeasure w + 3 := by
  simp only [vadMeasure, running, seq]

theorem vadMeasure_memPending {u : VadUnit} {run : VadRun} {w : ProcWork} {a : Word} (running : u.run = some run)
    (seq : run.seq = .process (.memWait w)) (port : u.memPort = .pending a) :
    vadMeasure u = workMeasure w + 2 := by
  simp only [vadMeasure, running, seq, port]

theorem vadMeasure_memAnswered {u : VadUnit} {run : VadRun} {w : ProcWork} {word : Word} (running : u.run = some run)
    (seq : run.seq = .process (.memWait w)) (port : u.memPort = .answered word) :
    vadMeasure u = workMeasure w + 1 := by
  simp only [vadMeasure, running, seq, port]

theorem vadMeasure_ivadPending {u : VadUnit} {run : VadRun} {w : ProcWork} {r : IvadReq} (running : u.run = some run)
    (seq : run.seq = .process (.ivadWait w)) (port : u.ivadPort = .pending r) :
    vadMeasure u = workMeasure w + 2 := by
  simp only [vadMeasure, running, seq, port]

theorem vadMeasure_ivadAnswered {u : VadUnit} {run : VadRun} {w : ProcWork} {code : BitVec 2}
    (running : u.run = some run) (seq : run.seq = .process (.ivadWait w)) (port : u.ivadPort = .answered code) :
    vadMeasure u = workMeasure w + 1 := by
  simp only [vadMeasure, running, seq, port]

/-- A sample moves from the rest, where it counts twice, to the offset (41_vad_frame_assembler.md R103). -/
theorem workMeasure_afterSample {w : ProcWork} (left : 0 < w.rem) :
    workMeasure (workAfterSample w) + 4 = workMeasure w := by
  simp only [workMeasure, workAfterSample]
  omega

/-- A verdict takes a whole frame off the measure. -/
theorem workMeasure_afterVerdict (w : ProcWork) (code : BitVec 2) :
    workMeasure (workAfterVerdict w code) + 4 * w.off = workMeasure w := by
  simp only [workMeasure, workAfterVerdict]
  omega

theorem vadGoto_run_some {s : State} {run : VadRun} (running : s.vad.run = some run) (seq : VadSeq) :
    (vadGoto seq s).vad.run = some { run with seq := seq } := by
  rw [vadGoto_running running]

/-! ### A pass of the loop -/

theorem WorkOk.flen_bounds {u : VadUnit} {run : VadRun} {w : ProcWork} (h : WorkOk u run w) (hc : VadCommitted u) :
    240 ≤ w.flen.toNat ∧ w.flen.toNat ≤ 1440 := by
  obtain ⟨mem, hf⟩ := rateCheck_supported hc h.checked
  exact hf ▸ flenOf_bounds mem

/-- With input left, the pointer is in R50's domain (20_memory.md R47, R51). -/
theorem HeadOk.pointer_ok {u : VadUnit} {run : VadRun} {w : ProcWork} (h : HeadOk u run w) (left : 0 < w.rem) :
    w.p % 4 = 0 ∧ w.p + 4 ≤ addressTop := by
  obtain ⟨address, more⟩ := h.work.next_address left
  rcases checkProcessArgs_eq_none.1 h.args with empty | ⟨aligned, fits⟩ <;> omega

/-- A pass of the loop ends the command or posts a request. -/
theorem HeadOk.iterate_nearer {s : State} {run : VadRun} {w : ProcWork} (h : HeadOk s.vad run w) :
    ∃ t, iterate w s = .next t ∧ vadMeasure t.vad ≤ workMeasure w + 2 := by
  obtain ⟨t, pass⟩ := iterate_goes s h.pointer_ok
  refine ⟨t, pass, ?_⟩
  rcases iterate_cases pass with ⟨-, rfl⟩ | ⟨-, -, rfl⟩ | ⟨-, -, -, -, rfl⟩
  · exact (vadMeasure_ivadPending (vadGoto_run_some (s := postIvad _ s) h.running _) rfl rfl).le
  · exact (vadMeasure_idle rfl).trans_le (Nat.zero_le _)
  · exact (vadMeasure_memPending (vadGoto_run_some (s := postMem _ s) h.running _) rfl rfl).le

/-! ### The unit's own steps -/

theorem vadMove_process {s : State} {run : VadRun} {pos : ProcPos} (running : s.vad.run = some run)
    (seq : run.seq = .process pos) : vadMove s = exec .vadProcess s := by
  have command : vadCommand run = .vadProcess := by simp only [vadCommand, seq]
  rw [← command]
  simp only [vadMove, running]

theorem vadMove_init {s : State} {run : VadRun} {pulsed : Bool} (turn : s.env.turn = .vadUnit)
    (running : s.vad.run = some run) (seq : run.seq = .init pulsed) : vadMove s = .next (runVadInit s) := by
  have command : vadCommand run = .vadInit := by simp only [vadCommand, seq]
  rw [← (exec_vadUnit turn).1, ← command]
  simp only [vadMove, running]

theorem vadMove_setmode {s : State} {run : VadRun} (turn : s.env.turn = .vadUnit) (running : s.vad.run = some run)
    (seq : run.seq = .setmode) : vadMove s = .next (runVadSetmode s) := by
  have command : vadCommand run = .vadSetmode := by simp only [vadCommand, seq]
  rw [← (exec_vadUnit turn).2.1, ← command]
  simp only [vadMove, running]

/-- A unit that waits for an answer takes no step (60_exceptions.md R140). -/
theorem vadMove_waiting {s : State} (ok : VadOk s.vad) (turn : s.env.turn = .vadUnit) (waits : vadWaits s.vad) :
    vadMove s = .next s := by
  rcases waits with ⟨a, port⟩ | ⟨q, port⟩
  · obtain ⟨run, w, running, seq⟩ := ok.of_memPending port
    rw [vadMove_process running seq, (exec_vadUnit turn).2.2]
    simp only [runVadProcess, running, seq, port]
  · obtain ⟨run, w, running, seq⟩ := ok.of_ivadPending port
    rw [vadMove_process running seq, (exec_vadUnit turn).2.2]
    simp only [runVadProcess, running, seq, port]

/-- From the loop head the unit ends the command or posts a request. -/
theorem vadMove_head {s u : State} {run : VadRun} {pos : ProcPos} {w : ProcWork} (ok : VadOk s.vad)
    (turn : s.env.turn = .vadUnit) (running : s.vad.run = some run) (seq : run.seq = .process pos)
    (head : AtHead s run w u) : ∃ t, vadMove s = .next t ∧ vadMeasure t.vad ≤ workMeasure w + 2 := by
  rw [vadMove_process running seq, exec_vadProcess_head turn running head]
  exact (atHead_ok ok running head).iterate_nearer

/-- A VAD_PROCESS that waits for nothing comes nearer to its end. -/
theorem vadMove_process_nearer {s : State} {run : VadRun} {pos : ProcPos} (ok : VadOk s.vad)
    (turn : s.env.turn = .vadUnit) (running : s.vad.run = some run) (seq : run.seq = .process pos)
    (quiet : ¬vadWaits s.vad) : ∃ t, vadMove s = .next t ∧ vadMeasure t.vad < vadMeasure s.vad := by
  obtain ⟨-, position⟩ := ok.process running seq
  cases pos with
  | start =>
    cases checked : rateCheck run.rateA s.vad with
    | none =>
      refine ⟨completeVad rateFailCommit s, ?_, ?_⟩
      · rw [vadMove_process running seq, (exec_vadUnit turn).2.2]
        simp only [runVadProcess, running, seq, checked]
      · rw [vadMeasure_idle rfl, vadMeasure_start running seq 0 0]
        exact Nat.succ_pos _
    | some session =>
      have head : AtHead s run (startWork session.1 session.2 run s.vad) s :=
        .start session.1 session.2 seq checked
      obtain ⟨t, next, near⟩ := vadMove_head ok turn running seq head
      rw [vadMeasure_start running seq session.1 session.2]
      exact ⟨t, next, by omega⟩
  | loop w =>
    obtain ⟨t, next, near⟩ := vadMove_head ok turn running seq (.verdict w seq)
    rw [vadMeasure_loop running seq]
    exact ⟨t, next, Nat.lt_succ_of_le near⟩
  | memWait w =>
    obtain ⟨work, room, left, -, port | ⟨word, port⟩⟩ := position
    · exact absurd (.inl ⟨_, port⟩) quiet
    · have inside : w.off < 1440 := room.trans_le (work.flen_bounds ok.committed).2
      have head : AtHead s run (workAfterSample w) (fillSample w word s) := .sample w word seq port inside
      obtain ⟨t, next, near⟩ := vadMove_head ok turn running seq head
      have fewer := workMeasure_afterSample left
      rw [vadMeasure_memAnswered running seq port]
      exact ⟨t, next, by omega⟩
  | ivadWait w =>
    obtain ⟨work, full, -, port | ⟨code, port⟩⟩ := position
    · exact absurd (.inr ⟨_, port⟩) quiet
    · refine ⟨takeVerdict w code s, ?_, ?_⟩
      · rw [vadMove_process running seq, (exec_vadUnit turn).2.2, runVadProcess_verdict running seq port]
      · have frame := (work.flen_bounds ok.committed).1
        have fewer := workMeasure_afterVerdict w code
        have moved := vadGoto_run_some (s := { s with vad := { s.vad with ivadPort := .idle } }) running
          (.process (.loop (workAfterVerdict w code)))
        rw [takeVerdict, vadMeasure_loop moved rfl, vadMeasure_ivadAnswered running seq port]
        omega

/-- A busy unit that waits for nothing comes nearer to its end. -/
theorem vadMove_nearer {s : State} (ok : VadOk s.vad) (turn : s.env.turn = .vadUnit) (busy : vadBusy s.vad = true)
    (quiet : ¬vadWaits s.vad) : ∃ t, vadMove s = .next t ∧ vadMeasure t.vad < vadMeasure s.vad := by
  obtain ⟨run, running⟩ := Option.isSome_iff_exists.1 busy
  cases seq : run.seq with
  | init pulsed =>
    rw [vadMove_init turn running seq, vadMeasure_init running seq]
    refine ⟨_, rfl, ?_⟩
    cases pulsed with
    | false =>
      have pulse : runVadInit s = vadGoto (.init true) (pulseIvad s) := by
        simp only [runVadInit, running, Option.map_some, seq]
      rw [pulse, vadMeasure_init (vadGoto_run_some (s := pulseIvad s) running _) rfl]
      decide
    | true =>
      have complete : runVadInit s = completeVad initCommit s := by
        simp only [runVadInit, running, Option.map_some, seq]
      rw [complete, vadMeasure_idle rfl]
      decide
  | setmode =>
    rw [vadMove_setmode turn running seq, vadMeasure_setmode running seq]
    have complete : runVadSetmode s = completeVad (setmodeCommit run.rateA) s := by
      obtain ⟨rateA, addrA, blenA, _⟩ := run
      cases seq
      simp only [runVadSetmode, running]
    exact ⟨_, rfl, by rw [complete, vadMeasure_idle rfl]; exact Nat.one_pos⟩
  | process pos => exact vadMove_process_nearer ok turn running seq quiet

/-- The unit's step ends BUSY only with DONE (60_exceptions.md R132). -/
theorem vadMove_done {s t : State} (next : vadMove s = .next t) (busy : vadBusy s.vad = true)
    (idle : vadBusy t.vad = false) : t.vad.done = true := by
  rcases (vadExec_of_vadMove next).flags with ⟨-, kept⟩ | ⟨-, -, done, -⟩
  · exact absurd (idle.symm.trans (kept busy)) Bool.false_ne_true
  · exact done

/-! ### The answers -/

/-- Where host memory answers, only the port changes of the VAD unit. -/
theorem memoryMove_vad {s s' : State} {a word : Word} (port : s.vad.memPort = .pending a)
    (answer : memRead a s = some (word, s')) : (memoryMove s).vad = { s.vad with memPort := .answered word } := by
  have kept : s'.vad = s.vad := by
    rcases memRead_cases answer with ⟨-, -, rfl⟩ | ⟨-, -, rfl⟩ | ⟨v, -, rfl, -⟩ <;> rfl
  simp only [memoryMove, port, answer, kept]

/-- The answer to a MemRead brings its command nearer to its end, and ends no command. -/
theorem memoryMove_nearer {s s' : State} {a word : Word} (ok : VadOk s.vad) (port : s.vad.memPort = .pending a)
    (answer : memRead a s = some (word, s')) :
    vadMeasure (memoryMove s).vad < vadMeasure s.vad ∧ (memoryMove s).vad.run = s.vad.run := by
  obtain ⟨run, w, running, seq⟩ := ok.of_memPending port
  have kept : (memoryMove s).vad.run = s.vad.run := by rw [memoryMove_vad port answer]
  have answered : (memoryMove s).vad.memPort = .answered word := by rw [memoryMove_vad port answer]
  rw [vadMeasure_memPending running seq port, vadMeasure_memAnswered (kept.trans running) seq answered]
  exact ⟨Nat.lt_succ_self _, kept⟩

/-- A verdict brings its command nearer to its end, and ends no command. -/
theorem innerVadMove_nearer {s : State} {r : IvadReq} (ok : VadOk s.vad) (port : s.vad.ivadPort = .pending r) :
    vadMeasure (innerVadMove s).vad < vadMeasure s.vad ∧ (innerVadMove s).vad.run = s.vad.run := by
  obtain ⟨run, w, running, seq⟩ := ok.of_ivadPending port
  have kept : (innerVadMove s).vad.run = s.vad.run := by rw [innerVadMove_pending port]
  obtain ⟨code, answered⟩ : ∃ code, (innerVadMove s).vad.ivadPort = .answered code :=
    ⟨_, by rw [innerVadMove_pending port]⟩
  rw [vadMeasure_ivadPending running seq port, vadMeasure_ivadAnswered (kept.trans running) seq answered]
  exact ⟨Nat.lt_succ_self _, kept⟩

/-! ### Every step of a run -/

/-- What the VAD unit's measure and waits depend on is the same in both states. -/
structure VadStill (s t : State) : Prop where
  run : t.vad.run = s.vad.run
  off : t.vad.off = s.vad.off
  memPort : t.vad.memPort = s.vad.memPort
  ivadPort : t.vad.ivadPort = s.vad.ivadPort

theorem VadStill.of_eq {s t : State} (h : t.vad = s.vad) : VadStill s t := by
  constructor <;> rw [h]

theorem VadStill.trans {s t u : State} (h : VadStill s t) (g : VadStill t u) : VadStill s u :=
  ⟨g.run.trans h.run, g.off.trans h.off, g.memPort.trans h.memPort, g.ivadPort.trans h.ivadPort⟩

theorem VadStill.measure {s t : State} (h : VadStill s t) : vadMeasure t.vad = vadMeasure s.vad := by
  unfold vadMeasure
  rw [h.run, h.off, h.memPort, h.ivadPort]

theorem VadStill.waits {s t : State} (h : VadStill s t) : vadWaits t.vad ↔ vadWaits s.vad := by
  unfold vadWaits
  rw [h.memPort, h.ivadPort]

/-- No write to the window touches a running VAD command (60_exceptions.md R128). -/
theorem WindowEffect.vadStill {s t : State} (h : WindowEffect s t) (turn : s.env.turn = .host)
    (busy : vadBusy s.vad = true) : VadStill s t := by
  cases h with
  | command i t next =>
    cases unit : i.unit with
    | mp3 => exact .of_eq (mp3Exec_of_exec unit next).rest.1
    | vad =>
      cases vadExec_of_exec unit next with
      | accepts seq host idle =>
        rw [vadBusy, idle] at busy
        exact absurd busy Bool.false_ne_true
      | initPulse run own | initEnd run own | setmodeEnd run own | rateFail run own | pass run w s' t own
      | verdict run w code own => exact Agent.noConfusion (turn.symm.trans own)
      | nothing | overruns | rejects => exact ⟨rfl, rfl, rfl, rfl⟩
  | overruns u | rejects u =>
    cases u with
    | vad | mp3 => exact ⟨rfl, rfl, rfl, rfl⟩
  | nothing | vadStatus | mp3Status | vadArgs | mp3Args | irqEnable => exact ⟨rfl, rfl, rfl, rfl⟩

theorem step_vadUnit {s : State} (turn : (takeTurn s).env.turn = .vadUnit) : step s = vadMove (takeTurn s) := by
  simp only [step, agentMove, turn]

/-- The unit's turn brings a command that waits for nothing nearer to its end. -/
theorem step_vad_nearer {s t : State} (ok : VadOk s.vad) (next : step s = .next t) (busy : vadBusy s.vad = true)
    (turn : (takeTurn s).env.turn = .vadUnit) (quiet : ¬vadWaits s.vad) :
    vadMeasure t.vad < vadMeasure s.vad := by
  rw [step_vadUnit turn] at next
  rw [← takeTurn_vad s] at ok busy quiet ⊢
  obtain ⟨t', moved, nearer⟩ := vadMove_nearer ok turn busy quiet
  rw [next_inj.1 (moved.symm.trans next)]
  exact nearer

/-- Another agent's step leaves the command and its ports as they are, but for an answer and the reset. -/
theorem AgentEffect.vad_still_or_nearer {s t : State} (h : AgentEffect s t) (ok : VadOk s.vad)
    (other : s.env.turn ≠ .vadUnit) (before : vadBusy s.vad = true) (after : vadBusy t.vad = true) :
    VadStill s t ∨ vadMeasure t.vad < vadMeasure s.vad := by
  cases h with
  | host t turn effect =>
    cases effect with
    | window t effect => exact .inl ((VadStill.of_eq (popHostOp_vad s)).trans (effect.vadStill turn before))
    | outside t hvad => exact .inl (.of_eq hvad)
    | reset => exact absurd after Bool.false_ne_true
  | vadUnit t turn => exact absurd turn other
  | mp3Unit t turn effect => exact .inl (.of_eq effect.rest.1)
  | innerDecoder => exact .inl (.of_eq (innerDecoderMove_vad s))
  | hostMemory =>
    rcases memoryMove_cases s with same | ⟨a, word, s', port, answer, -⟩
    · exact .inl (.of_eq (by rw [same]))
    · exact .inr (memoryMove_nearer ok port answer).1
  | innerVad =>
    rcases innerVadMove_cases s with same | ⟨r, code, port, -⟩
    · exact .inl (.of_eq (by rw [same]))
    · exact .inr (innerVadMove_nearer ok port).1

/-- A step that leaves the unit BUSY leaves the command and its ports as they are, or brings it nearer to its end. -/
theorem step_vad_still_or_nearer {s t : State} (ok : VadOk s.vad) (next : step s = .next t)
    (before : vadBusy s.vad = true) (after : vadBusy t.vad = true) :
    VadStill s t ∨ vadMeasure t.vad < vadMeasure s.vad := by
  have taken : (takeTurn s).vad = s.vad := takeTurn_vad s
  by_cases own : (takeTurn s).env.turn = .vadUnit
  · by_cases waits : vadWaits s.vad
    · rw [step_vadUnit own, vadMove_waiting (taken ▸ ok) own (taken ▸ waits)] at next
      exact .inl (.of_eq (by rw [next_inj.1 next, taken]))
    · exact .inr (step_vad_nearer ok next before own waits)
  · have effect := (step_effect next).vad_still_or_nearer (taken ▸ ok) own (taken ▸ before) after
    exact (taken ▸ effect).imp_left (VadStill.of_eq taken).trans

/-- While the unit stays BUSY, the command and its ports stand still, or it has come nearer to its end. -/
theorem IsRun.vad_still_or_nearer {r : Nat → State} (run : IsRun r) (inv : ∀ i, (r i).Inv) {k j : Nat}
    (later : k ≤ j) (busy : ∀ i, k ≤ i → vadBusy (r i).vad = true) :
    VadStill (r k) (r j) ∨ ∃ i, k ≤ i ∧ vadMeasure (r i).vad < vadMeasure (r k).vad := by
  induction j, later using Nat.le_induction with
  | base => exact .inl (.of_eq rfl)
  | succ j later ih =>
    rcases ih with still | nearer
    · rcases step_vad_still_or_nearer (inv j).vad (run j) (busy j later) (busy (j + 1) (Nat.le_succ_of_le later)) with
        step | less
      · exact .inl (still.trans step)
      · exact .inr ⟨j + 1, Nat.le_succ_of_le later, still.measure ▸ less⟩
    · exact .inr nearer

/-- The agents that every run gives their turn, by the ticks that are theirs (60_exceptions.md R142; log 23). -/
theorem IsRun.fairTurnComes {r : Nat → State} (run : IsRun r) {a : Agent}
    (fair : a = .host ∨ a = .vadUnit ∨ a = .hostMemory) (n : Nat) :
    ∃ m, n ≤ m ∧ (takeTurn (r m)).env.turn = a := by
  rcases fair with rfl | rfl | rfl
  · exact run.turnComes 0 n
  · exact run.turnComes 1 n
  · exact run.turnComes 3 n

/-- A command whose waits end comes nearer to its end: where it waits for nothing, its unit's next turn is a step of
it. -/
theorem IsRun.vad_nearer {r : Nat → State} (run : IsRun r) (inv : ∀ i, (r i).Inv) {k : Nat}
    (busy : ∀ i, k ≤ i → vadBusy (r i).vad = true)
    (answered : vadWaits (r k).vad → ∃ m, k ≤ m ∧ ¬vadWaits (r m).vad) :
    ∃ i, k ≤ i ∧ vadMeasure (r i).vad < vadMeasure (r k).vad := by
  by_contra never
  have still : ∀ j, k ≤ j → VadStill (r k) (r j) := fun j later =>
    (run.vad_still_or_nearer inv later busy).resolve_right never
  have quiet : ¬vadWaits (r k).vad := fun waits => by
    obtain ⟨m, later, free⟩ := answered waits
    exact free ((still m later).waits.2 waits)
  obtain ⟨i, later, turn⟩ := run.fairTurnComes (.inr (.inl rfl)) k
  have less := step_vad_nearer (inv i).vad (run i) (busy i later) turn ((still i later).waits.not.2 quiet)
  exact never ⟨i + 1, Nat.le_succ_of_le later, (still i later).measure ▸ less⟩

/-- An idle unit waits for nothing. -/
theorem VadOk.idle_quiet {u : VadUnit} (ok : VadOk u) (idle : vadBusy u = false) : ¬vadWaits u := by
  obtain ⟨hmem, hivad⟩ := ok.idle_ports (by simpa [vadBusy] using idle)
  rintro (⟨a, port⟩ | ⟨q, port⟩)
  · cases hmem.symm.trans port
  · cases hivad.symm.trans port

/-- In a run, BUSY ends exactly where every wait ends: while it lasts and the waits end, the measure would fall for
ever. -/
theorem IsRun.vad_ends_iff {r : Nat → State} (run : IsRun r) (inv : ∀ i, (r i).Inv) (n : Nat) :
    (∃ m, n ≤ m ∧ vadBusy (r m).vad = false)
      ↔ ∀ k, n ≤ k → (∀ j, n ≤ j → j ≤ k → vadBusy (r j).vad = true) → vadWaits (r k).vad →
        ∃ m, k ≤ m ∧ ¬vadWaits (r m).vad := by
  constructor
  · rintro ⟨m, later, idle⟩ k _ busy _
    rcases le_total k m with after | before
    · exact ⟨m, after, (inv m).vad.idle_quiet idle⟩
    · exact absurd (idle.symm.trans (busy m later before)) Bool.false_ne_true
  · intro answered
    by_contra never
    have busy : ∀ i, n ≤ i → vadBusy (r i).vad = true := fun i later =>
      Bool.of_not_eq_false fun idle => never ⟨i, later, idle⟩
    exact not_falling_forever (f := fun k => vadMeasure (r k).vad) fun k later =>
      run.vad_nearer inv (fun i after => busy i (later.trans after)) (answered k later fun j from_n _ => busy j from_n)

/-! ### The needed step -/

/-- The agent that moves next: host memory or the inner VAD where a request waits for it, else the unit. -/
theorem vadMover_cases {u : VadUnit} (ok : VadOk u) :
    (∃ a, u.memPort = .pending a ∧ vadMover u = .hostMemory)
    ∨ (∃ q, u.ivadPort = .pending q ∧ vadMover u = .innerVad)
    ∨ (¬vadWaits u ∧ vadMover u = .vadUnit) := by
  by_cases waits : vadWaits u
  · rcases waits with ⟨a, port⟩ | ⟨q, port⟩
    · exact .inl ⟨a, port, by rw [vadMover, port]⟩
    · obtain ⟨run, w, running, seq⟩ := ok.of_ivadPending port
      obtain ⟨-, -, -, idle, -⟩ := ok.process running seq
      exact .inr (.inl ⟨q, port, by rw [vadMover, port, idle]⟩)
  · refine .inr (.inr ⟨waits, ?_⟩)
    unfold vadMover
    split
    · next a port => exact absurd (.inl ⟨a, port⟩) waits
    · next q port _ => exact absurd (.inr ⟨q, port⟩) waits
    · rfl

/-- The agent whose step a BUSY unit needs brings its command nearer to its end, and ends BUSY only with DONE. -/
theorem vadMover_nearer {s : State} (ok : VadOk s.vad) (busy : vadBusy s.vad = true)
    (turn : s.env.turn = vadMover s.vad)
    (backed : ∀ a, s.vad.memPort = .pending a → (memRead a s).isSome = true) :
    ∃ t, agentMove s = .next t ∧ vadMeasure t.vad < vadMeasure s.vad
      ∧ (vadBusy t.vad = false → t.vad.done = true) := by
  have stays : ∀ {t : State}, t.vad.run = s.vad.run → vadBusy t.vad = false → t.vad.done = true := by
    intro t kept idle
    rw [vadBusy, kept] at idle
    exact absurd (idle.symm.trans busy) Bool.false_ne_true
  rcases vadMover_cases ok with ⟨a, port, mover⟩ | ⟨q, port, mover⟩ | ⟨quiet, mover⟩ <;> rw [mover] at turn
  · obtain ⟨⟨word, s'⟩, answer⟩ := Option.isSome_iff_exists.1 (backed a port)
    obtain ⟨nearer, kept⟩ := memoryMove_nearer ok port answer
    exact ⟨memoryMove s, by rw [agentMove, turn], nearer, stays kept⟩
  · obtain ⟨nearer, kept⟩ := innerVadMove_nearer ok port
    exact ⟨innerVadMove s, by rw [agentMove, turn], nearer, stays kept⟩
  · obtain ⟨t, next, nearer⟩ := vadMove_nearer ok turn busy quiet
    exact ⟨t, by rw [agentMove, turn, next], nearer, vadMove_done next busy⟩

/-- Settles O56: the needed step lowers the measure, the turns of the host, the unit and host memory come again and
again, and so a run that answers every request ends the command. -/
theorem vadCommandComesToItsEnd : Obligations.VadCommandComesToItsEnd := by
  unfold Obligations.VadCommandComesToItsEnd
  exact ⟨fun s inv busy turn backed => vadMover_nearer inv.vad busy turn backed,
    fun r a run fair n => run.fairTurnComes fair n, fun r run start n _ => run.vad_ends_iff (run.inv start) n⟩

end Sys2Proof.Machine
end

section
/-! SUPPORT. The decision (42_vad_decision.md R109, R111, R113): when DECIDE answers each event, and its voice test over
the rationals. -/

namespace Sys2Proof.Machine

/-! ### The events of DECIDE -/

/-- The default of R109's first test: no frame is silence. -/
theorem decideEvent_of_countsTotal_eq_zero {h : Counts} (noFrame : countsTotal h = 0) : decideEvent h = 0 :=
  if_pos noFrame

/-- One error decides, whatever the other buckets hold. -/
theorem decideEvent_of_error {h : Counts} (error : 0 < h.e) : decideEvent h = -1 := by
  have frames : countsTotal h ≠ 0 := by unfold countsTotal; omega
  rw [decideEvent, if_neg frames, if_pos error]

/-- Without an error the voice test alone decides. -/
theorem decideEvent_of_noError {h : Counts} (noError : h.e = 0) (frames : 0 < countsTotal h) :
    decideEvent h = if 4 * countsTotal h ≤ 5 * h.v then 1 else 0 := by
  rw [decideEvent, if_neg frames.ne', if_neg (Nat.not_lt.2 noError.le)]

theorem decideEvent_zero_or_one {h : Counts} (noError : h.e = 0) : decideEvent h = 0 ∨ decideEvent h = 1 := by
  rcases Nat.eq_zero_or_pos (countsTotal h) with noFrame | frames
  · exact .inl (decideEvent_of_countsTotal_eq_zero noFrame)
  · rw [decideEvent_of_noError noError frames]
    exact (ite_eq_or_eq _ 1 0).symm

/-- R109's events; NOISE is none of them (R111). -/
theorem decideEvent_cases (h : Counts) : decideEvent h = -1 ∨ decideEvent h = 0 ∨ decideEvent h = 1 :=
  (Nat.eq_zero_or_pos h.e).symm.imp decideEvent_of_error decideEvent_zero_or_one

theorem decideEvent_eq_one_iff {h : Counts} (noError : h.e = 0) (frames : 0 < countsTotal h) :
    decideEvent h = 1 ↔ 4 * countsTotal h ≤ 5 * h.v := by
  rw [decideEvent_of_noError noError frames]
  exact ite_eq_left_iff.trans (by simp)

/-- Frames without voice and without an error are silence, be they noise or not. -/
theorem decideEvent_of_noVoice {h : Counts} (noVoice : h.v = 0) (noError : h.e = 0) : decideEvent h = 0 := by
  rcases Nat.eq_zero_or_pos (countsTotal h) with noFrame | frames
  · exact decideEvent_of_countsTotal_eq_zero noFrame
  · rw [decideEvent_of_noError noError frames, if_neg (by omega)]

/-! ### The voice test -/

/-- The integer comparison of R109 is the comparison of the rational share with 80 %. -/
theorem fourFifths_le_share_iff {t v : ℕ} (frames : 0 < t) : (4 / 5 : ℚ) ≤ (v : ℚ) / (t : ℚ) ↔ 4 * t ≤ 5 * v := by
  rw [div_le_div_iff₀ (by norm_num) (Nat.cast_pos.2 frames), mul_comm (v : ℚ)]
  exact_mod_cast Iff.rfl

/-- The least voice count that passes R109's comparison is the ceiling of R113. -/
theorem ceil_fourFifths_le_iff (t v : ℕ) : ⌈(4 * (t : ℚ) / 5 : ℚ)⌉ ≤ (v : ℤ) ↔ 4 * t ≤ 5 * v := by
  rw [Int.ceil_le, Int.cast_natCast, div_le_iff₀ (by norm_num), mul_comm (v : ℚ)]
  exact_mod_cast Iff.rfl

/-- Settles O26: the events by R109's tests in their order, and the voice test read over the rationals. -/
theorem decisionIsTheExactMajority : Obligations.DecisionIsTheExactMajority := by
  unfold Obligations.DecisionIsTheExactMajority
  intro h
  refine ⟨decideEvent_of_countsTotal_eq_zero, decideEvent_of_error, fun noError frames => ?_,
    decideEvent_of_noVoice, ?_⟩
  · have total : countsTotal h = h.s + h.v + h.n := by rw [countsTotal, noError, Nat.zero_add]
    have voice : decideEvent h = 1 ↔ 4 * (h.s + h.v + h.n) ≤ 5 * h.v :=
      total ▸ decideEvent_eq_one_iff noError (total ▸ frames)
    exact ⟨voice.trans (fourFifths_le_share_iff frames).symm, voice.trans (ceil_fourFifths_le_iff _ _).symm,
      decideEvent_zero_or_one noError⟩
  · rcases decideEvent_cases h with e | e | e <;> rw [e] <;> decide

end Sys2Proof.Machine
end

section
/-! SUPPORT. The VAD session (43_vad_session.md R114 to R124): the rate check, `complete` of each VAD command field by
field, the ends of the three commands, and what changes a locked rate. -/

namespace Sys2Proof.Machine

/-! ### The rate check -/

theorem mem_rates_iff {rate : Word} :
    rate ∈ Config.rates ↔ rate = 8000 ∨ rate = 16000 ∨ rate = 32000 ∨ rate = 48000 := by
  simp [Config.rates]

theorem rateCheck_unlocked {u : VadUnit} (unlocked : u.rate = 0) (rateA : Word) :
    rateCheck rateA u = if rateA ∈ Config.rates then some (rateA, flenOf rateA) else none := if_pos unlocked

theorem rateCheck_locked {u : VadUnit} (locked : u.rate ≠ 0) (rateA : Word) :
    rateCheck rateA u = if rateA ≠ u.rate then none else some (u.rate, u.flen) := if_neg locked

/-- Settles O14: the check's two branches, and the list of rates. -/
theorem rateCheckFollowsTheLock : Obligations.RateCheckFollowsTheLock := by
  unfold Obligations.RateCheckFollowsTheLock
  refine fun rateA u => ⟨fun unlocked listed => ?_, fun unlocked unlisted => ?_, fun locked other => ?_,
    fun locked same => ?_, by decide⟩
  · rw [rateCheck_unlocked unlocked, if_pos (mem_rates_iff.2 listed)]
    rfl
  · rw [rateCheck_unlocked unlocked, if_neg (mem_rates_iff.not.2 unlisted)]
  · rw [rateCheck_locked locked, if_pos other]
  · rw [rateCheck_locked locked, if_neg (not_not.2 same)]

/-- A passed check is of the operand's own rate, a supported one, with its frame length, locked before or not
(43_vad_session.md R114, R115). -/
theorem rateCheck_passed {u : VadUnit} (hc : VadCommitted u) {rateA rate flen : Word}
    (passed : rateCheck rateA u = some (rate, flen)) :
    rate = rateA ∧ rateA ∈ Config.rates ∧ flen = rateA / 1000 * 30 := by
  obtain ⟨listed, length⟩ := rateCheck_supported hc passed
  obtain ⟨rfl, -⟩ := rateCheck_cases passed
  exact ⟨rfl, listed, length⟩

/-! ### `complete` of the VAD commands -/

/-- `complete` of VAD_INIT (43_vad_session.md R122). -/
theorem completeVad_init (s : State) : completeVad initCommit s = { s with
    vad := { s.vad with
      rate := 0, flen := 0, off := 0, mode := 0, hist := { err := 0, sil := 0, voi := 0, noi := 0 },
      result := 1, rateReject := false, run := none, done := true } } := rfl

/-- `complete` of VAD_SETMODE (43_vad_session.md R123). -/
theorem completeVad_setmode (m : Word) (s : State) : completeVad (setmodeCommit m) s = { s with
    vad := { s.vad with
      mode := if m.toNat ≤ 3 then m.setWidth 2 else s.vad.mode
      result := if m.toNat ≤ 3 then 1 else 0
      rateReject := false, run := none, done := true } } := by
  unfold setmodeCommit
  split <;> rfl

/-- `complete` of a VAD_PROCESS whose rate check fails (43_vad_session.md R116). -/
theorem completeVad_rateFail (s : State) : completeVad rateFailCommit s = { s with
    vad := { s.vad with
      result := 0xFFFFFFFF, hist := { err := 0, sil := 0, voi := 0, noi := 0 }, rateReject := true,
      run := none, done := true } } := rfl

/-- `complete` of a VAD_PROCESS at the end of its iterator (43_vad_session.md R124). -/
theorem completeVad_process (w : ProcWork) (s : State) : completeVad (processCommit w) s = { s with
    vad := { s.vad with
      rate := w.rate, flen := w.flen, off := BitVec.ofNat 32 w.off, hist := countsRegs w.hist,
      result := eventBits (decideEvent w.hist), rateReject := false, run := none, done := true } } := rfl

/-! ### VAD_INIT and VAD_SETMODE -/

/-- The unit's two steps of VAD_INIT (43_vad_session.md R122). -/
theorem runVadInit_pulse {s : State} {run : VadRun} (running : s.vad.run = some run) (seq : run.seq = .init false) :
    runVadInit s = vadGoto (.init true) (pulseIvad s) := by
  simp only [runVadInit, running, Option.map_some, seq]

theorem runVadInit_complete {s : State} {run : VadRun} (running : s.vad.run = some run)
    (seq : run.seq = .init true) : runVadInit s = completeVad initCommit s := by
  simp only [runVadInit, running, Option.map_some, seq]

/-- The unit's step of VAD_SETMODE (43_vad_session.md R123). -/
theorem runVadSetmode_complete {s : State} {run : VadRun} (running : s.vad.run = some run) (seq : run.seq = .setmode) :
    runVadSetmode s = completeVad (setmodeCommit run.rateA) s := by
  obtain ⟨rateA, addrA, blenA, _⟩ := run
  cases seq
  simp only [runVadSetmode, running]

/-- Settles O12: acceptance, the pulse and `complete`. -/
theorem vadInitRunsToItsEnd : Obligations.VadInitRunsToItsEnd := by
  unfold Obligations.VadInitRunsToItsEnd
  intro s turn idle
  obtain ⟨issue, -⟩ := exec_unchecked_host turn
  have unit : ∀ {u : State}, u.env.turn = .vadUnit → exec .vadInit u = .next (runVadInit u) :=
    fun turn => (exec_vadUnit turn).1
  refine ⟨acceptVad (.init false) s, _, _, ?_, (unit rfl).trans (congrArg _ (runVadInit_pulse rfl rfl)),
    (unit rfl).trans (congrArg _ (runVadInit_complete rfl rfl)), ?_, rfl⟩
  · rw [issue, (issueVad_idle idle _).2]
  · simp only [completeVad_init, idle]
    rfl

/-- Settles O13: acceptance and `complete`; a mode of at most 3 fits its two bits. -/
theorem vadSetmodeRunsToItsEnd : Obligations.VadSetmodeRunsToItsEnd := by
  unfold Obligations.VadSetmodeRunsToItsEnd
  intro s turn idle
  obtain ⟨-, issue, -⟩ := exec_unchecked_host turn
  have unit : ∀ {u : State}, u.env.turn = .vadUnit → exec .vadSetmode u = .next (runVadSetmode u) :=
    fun turn => (exec_vadUnit turn).2.1
  refine ⟨acceptVad .setmode s, _, ?_, (unit rfl).trans (congrArg _ (runVadSetmode_complete rfl rfl)), ?_,
    fun legal => ?_⟩
  · rw [issue, (issueVad_idle idle _).2]
  · simp only [completeVad_setmode, idle]
    rfl
  · have mode : s.vad.arg0.toNat < 2 ^ 2 := Nat.lt_succ_of_le legal
    rw [completeVad_setmode]
    change (if s.vad.arg0.toNat ≤ 3 then s.vad.arg0.setWidth 2 else s.vad.mode).toNat = s.vad.arg0.toNat
    rw [if_pos legal, BitVec.toNat_setWidth, Nat.mod_eq_of_lt mode]

/-! ### VAD_PROCESS -/

/-- At its start a VAD_PROCESS whose rate check fails completes (43_vad_session.md R116). -/
theorem runVadProcess_rateFail {s : State} {run : VadRun} (running : s.vad.run = some run)
    (seq : run.seq = .process .start) (failed : rateCheck run.rateA s.vad = none) :
    runVadProcess s = .next (completeVad rateFailCommit s) := by
  simp only [runVadProcess, running, seq, failed]

/-- Settles O15: the unit's first step is `complete`. -/
theorem rateFailureCompletesWithoutProcessing : Obligations.RateFailureCompletesWithoutProcessing := by
  unfold Obligations.RateFailureCompletesWithoutProcessing
  intro s run turn running seq failed
  rw [(exec_vadUnit turn).2.2, runVadProcess_rateFail running seq failed, completeVad_rateFail]

/-- Step 2 of the loop: with room in the frame and no input left, the command completes
(41_vad_frame_assembler.md R100). -/
theorem iterate_completes {w : ProcWork} (room : w.off < w.flen.toNat) (empty : w.rem = 0) (s : State) :
    iterate w s = .next (completeVad (processCommit w) s) := by
  rw [iterate, if_neg (Nat.not_le.2 room), if_pos empty]

/-- At the end of the input the offset is the remainder, and the frames are the quotient, of overhang and input by the
frame length (41_vad_frame_assembler.md R105). -/
theorem WorkOk.div_mod {u : VadUnit} {run : VadRun} {w : ProcWork} (h : WorkOk u run w)
    (room : w.off < w.flen.toNat) (empty : w.rem = 0) :
    (u.off.toNat + sampleCount run.blenA) / w.flen.toNat = countsTotal w.hist
      ∧ (u.off.toNat + sampleCount run.blenA) % w.flen.toNat = w.off := by
  refine (Nat.div_mod_unique (Nat.zero_lt_of_lt room)).2 ⟨?_, room⟩
  have count := h.count
  rw [empty, Nat.mul_comm] at count
  omega

/-- An offset inside its frame is stored in VAD_OFF as it is. -/
theorem off_toNat {w : ProcWork} (room : w.off < w.flen.toNat) : (BitVec.ofNat 32 w.off).toNat = w.off :=
  (BitVec.toNat_ofNat _ _).trans (Nat.mod_eq_of_lt (room.trans w.flen.isLt))

/-- No counter overflows its histogram register (42_vad_decision.md R110). -/
theorem countsRegs_toNat {h : Counts} (small : countsTotal h < 8388608) :
    (countsRegs h).err.toNat = h.e ∧ (countsRegs h).sil.toNat = h.s ∧ (countsRegs h).voi.toNat = h.v
      ∧ (countsRegs h).noi.toNat = h.n := by
  unfold countsTotal at small
  simp only [countsRegs, BitVec.toNat_ofNat]
  omega

/-- Settles O20: the pass of the loop completes, with the session of the rate check, the remainder and the quotient by
the iterator's invariant, and counters too small to overflow. -/
theorem vadProcessCompletesWithItsFrames : Obligations.VadProcessCompletesWithItsFrames := by
  unfold Obligations.VadProcessCompletesWithItsFrames
  intro s u run w inv turn running head room empty
  have ok := atHead_ok inv.vad running head
  obtain ⟨rate, listed, flen⟩ := rateCheck_passed ok.committed ok.work.checked
  obtain ⟨frames, rest⟩ := ok.work.div_mod room empty
  obtain ⟨err, sil, voi, noi⟩ := countsRegs_toNat ok.total_lt
  have overhang : u.vad.off = s.vad.off := by
    obtain ⟨rb, port, log, rfl⟩ := atHead_state head
    rfl
  rw [overhang] at frames rest
  refine ⟨_, (exec_vadProcess_head turn running head).trans (iterate_completes room empty u), ?_,
    mem_rates_iff.1 listed, (off_toNat room).trans rest.symm, (countsRegs_total ok.total_lt).trans frames.symm,
    err, sil, voi, noi, rfl⟩
  rw [← flen, ← rate]
  exact completeVad_process w u

/-- Settles O21: the iterator starts with room in the frame and nothing to read, so its first pass completes. -/
theorem emptyVadProcessLocksTheRate : Obligations.EmptyVadProcessLocksTheRate := by
  unfold Obligations.EmptyVadProcessLocksTheRate
  intro s run inv turn running seq short passed
  obtain ⟨⟨rate, flen⟩, checked⟩ := Option.isSome_iff_exists.1 passed
  obtain ⟨rfl, -, rfl⟩ := rateCheck_passed inv.vad.committed checked
  have head : AtHead s run (startWork run.rateA _ run s.vad) s := .start _ _ seq checked
  rw [exec_vadProcess_head turn running head,
    iterate_completes (off_lt_flen inv.vad.committed checked) (Nat.div_eq_of_lt short), completeVad_process]
  have silence : eventBits (decideEvent countsZero) = 0 := by decide
  simp only [startWork, silence, BitVec.ofNat_toNat, BitVec.setWidth_eq]
  rfl

/-! ### What changes a locked rate -/

/-- The step from `s` to `t` is the unit's own, the end of a VAD_INIT (43_vad_session.md R122). -/
def unlocksByInit (s t : State) : Prop :=
  s.env.turn = .vadUnit ∧ s.vad.run.map VadRun.seq = some (.init true) ∧ t.vad.rate = 0 ∧ t.vad.run = none

/-- A pass of the loop keeps a locked rate: where it ends the command, it commits the rate that the check compared with
the lock (43_vad_session.md R115). -/
theorem HeadOk.keeps_rate {s t : State} {run : VadRun} {w : ProcWork} (h : HeadOk s.vad run w)
    (next : iterate w s = .next t) (locked : s.vad.rate ≠ 0) : t.vad.rate = s.vad.rate := by
  rcases iterate_cases next with ⟨-, rfl⟩ | ⟨-, -, rfl⟩ | ⟨-, -, -, -, rfl⟩
  · rfl
  · obtain ⟨rate, ⟨unlocked, -⟩ | ⟨-, same, -⟩⟩ := rateCheck_cases h.work.checked
    · exact absurd unlocked locked
    · exact rate.trans same
  · rfl

/-- Of the steps of a VAD command, only the end of VAD_INIT changes a locked rate (43_vad_session.md R118). -/
theorem VadExec.rate_cases {s t : State} (h : VadExec s t) (ok : VadOk s.vad) (locked : s.vad.rate ≠ 0) :
    t.vad.rate = s.vad.rate ∨ unlocksByInit s t := by
  cases h with
  | initEnd run turn running seq => exact .inr ⟨turn, by rw [running, Option.map_some, seq], rfl, rfl⟩
  | setmodeEnd run => exact .inl (by rw [completeVad_setmode])
  | pass run w s' t turn running head next =>
    have headOk := atHead_ok ok running head
    obtain ⟨rb, port, log, rfl⟩ := atHead_state head
    exact .inl (headOk.keeps_rate next locked)
  | nothing | overruns | rejects | accepts | initPulse | rateFail | verdict => exact .inl rfl

/-- No write to the window changes a locked rate: a command write is at the host's turn, where no command ends. -/
theorem WindowEffect.keeps_rate {s t : State} (h : WindowEffect s t) (turn : s.env.turn = .host) (ok : VadOk s.vad)
    (locked : s.vad.rate ≠ 0) : t.vad.rate = s.vad.rate := by
  cases h with
  | command i t next =>
    cases unit : i.unit with
    | vad =>
      refine ((vadExec_of_exec unit next).rate_cases ok locked).resolve_right fun ⟨own, _⟩ => ?_
      exact Agent.noConfusion (turn.symm.trans own)
    | mp3 => rw [(mp3Exec_of_exec unit next).rest.1]
  | overruns u | rejects u =>
    cases u with
    | vad | mp3 => rfl
  | nothing | vadStatus | mp3Status | vadArgs | mp3Args | irqEnable => rfl

/-- The answers of host memory and of the inner VAD leave the rate. -/
theorem answers_keep_rate (s : State) :
    (memoryMove s).vad.rate = s.vad.rate ∧ (innerVadMove s).vad.rate = s.vad.rate := by
  constructor
  · rcases memoryMove_cases s with same | ⟨a, word, s', port, answer, -⟩
    · rw [same]
    · rw [memoryMove_vad port answer]
  · rcases innerVadMove_cases s with same | ⟨r, code, -, answer⟩
    · rw [same]
    · rw [answer]

/-- Of everything an agent can do, only the end of VAD_INIT and the reset change a locked rate. -/
theorem AgentEffect.rate_cases {s t : State} (h : AgentEffect s t) (ok : VadOk s.vad) (locked : s.vad.rate ≠ 0) :
    t.vad.rate = s.vad.rate ∨ unlocksByInit s t
      ∨ (s.env.turn = .host ∧ s.env.hostOps.head? = some .assertRst ∧ t.vad.rate = 0) := by
  cases h with
  | host t turn effect =>
    cases effect with
    | window t effect => exact .inl (effect.keeps_rate turn ok locked)
    | outside t hvad => exact .inl (by rw [hvad])
    | reset op => exact .inr (.inr ⟨turn, op, rfl⟩)
  | vadUnit t turn effect => exact (effect.rate_cases ok locked).imp_right .inl
  | mp3Unit t turn effect => exact .inl (by rw [effect.rest.1])
  | hostMemory => exact .inl (answers_keep_rate s).1
  | innerVad => exact .inl (answers_keep_rate s).2
  | innerDecoder => exact .inl (by rw [innerDecoderMove_vad])

/-- Settles O58: a step is the turn taken and one agent's effect, of which two change a locked rate, both to 0. -/
theorem onlyInitAndResetUnlockTheRate : Obligations.OnlyInitAndResetUnlockTheRate := by
  unfold Obligations.OnlyInitAndResetUnlockTheRate
  intro s t inv next locked changed
  have effect := (step_effect next).rate_cases
  rw [unlocksByInit, takeTurn_vad, takeTurn_env_hostOps] at effect
  rcases effect inv.vad locked with kept | ⟨turn, seq, zero, ended⟩ | ⟨turn, op, zero⟩
  · exact absurd kept changed
  · exact ⟨zero, .inr ⟨turn, seq, ended⟩⟩
  · exact ⟨zero, .inl ⟨turn, op⟩⟩

end Sys2Proof.Machine
end

section
/-! SUPPORT. The exceptions family (60_exceptions.md R127, R128, R131, R141): rejection and overrun, the host's own
stores, what a step of a command reads of the block, and that no step stops. -/

namespace Sys2Proof.Machine

/-! ### Rejection and overrun -/

/-- Settles O8: the interrupt output reads DONE and IRQ_ENABLE, and BUSY the running command; neither is an error
field. -/
theorem rejectionChangesOnlyTheErrorFields : Obligations.RejectionChangesOnlyTheErrorFields := by
  unfold Obligations.RejectionChangesOnlyTheErrorFields
  refine fun cause s => ⟨rfl, rfl, fun u => ?_⟩
  cases u with
  | vad | mp3 => exact ⟨rfl, rfl⟩

theorem issueVad_busy {s : State} (busy : vadBusy s.vad = true) (seq : VadSeq) (check : Option Cause) :
    issueVad seq check s = overrun .vad s := if_pos busy

theorem issueMp3_busy {s : State} (busy : mp3Busy s.mp3 = true) (seq : Mp3Seq) (check : Option Cause) :
    issueMp3 seq check s = overrun .mp3 s := if_pos busy

/-- At the host's turn a VAD command is its acceptance procedure, its argument check one of the VAD unit
(30_encoding.md R72). -/
theorem exec_vad_host {i : Instr} (unit : i.unit = .vad) :
    ∃ (seq : VadSeq) (check : VadUnit → Option Cause),
      ∀ s : State, s.env.turn = .host → exec i s = .next (issueVad seq (check s.vad) s) := by
  cases i with
  | vadInit => exact ⟨.init false, fun _ => none, fun _ turn => (exec_unchecked_host turn).1⟩
  | vadSetmode => exact ⟨.setmode, fun _ => none, fun _ turn => (exec_unchecked_host turn).2.1⟩
  | vadProcess =>
    exact ⟨.process .start, fun u => checkProcessArgs u.arg1 u.arg2, fun _ turn => exec_vadProcess_host turn⟩
  | mp3DecodeS16 | mp3DecodeF32 | mp3Reset => cases unit

/-- At the host's turn an MP3 command is its acceptance procedure, its argument check one of the MP3 unit. -/
theorem exec_mp3_host {i : Instr} (unit : i.unit = .mp3) :
    ∃ (seq : Mp3Seq) (check : Mp3Unit → Option Cause),
      ∀ s : State, s.env.turn = .host → exec i s = .next (issueMp3 seq (check s.mp3) s) := by
  have decode : ∀ fmt, ∃ (seq : Mp3Seq) (check : Mp3Unit → Option Cause),
      ∀ s : State, s.env.turn = .host → exec (decodeInstr fmt) s = .next (issueMp3 seq (check s.mp3) s) :=
    fun fmt => ⟨.decode fmt (.call bootStart), fun u => checkDecodeArgs fmt u.arg0 u.arg1 u.arg2 u.arg3,
      fun _ turn => exec_decodeInstr_host turn fmt⟩
  cases i with
  | mp3DecodeS16 => exact decode .s16
  | mp3DecodeF32 => exact decode .f32
  | mp3Reset => exact ⟨.reset false, fun _ => none, fun _ turn => (exec_unchecked_host turn).2.2⟩
  | vadInit | vadSetmode | vadProcess => cases unit

/-- A command issued to its busy unit overruns, whatever its arguments (60_exceptions.md R128). -/
theorem exec_busy_host {i : Instr} {s : State} (turn : s.env.turn = .host) (running : busy i.unit s = true) :
    exec i s = .next (overrun i.unit s) := by
  cases unit : i.unit with
  | vad =>
    obtain ⟨seq, check, issue⟩ := exec_vad_host unit
    rw [unit] at running
    rw [issue s turn, issueVad_busy running]
  | mp3 =>
    obtain ⟨seq, check, issue⟩ := exec_mp3_host unit
    rw [unit] at running
    rw [issue s turn, issueMp3_busy running]

/-- A word written to a busy unit's command register overruns, legal or not (60_exceptions.md R128). -/
theorem commandWrite_busy {u : UnitId} {s : State} (turn : s.env.turn = .host) (running : busy u s = true) (w : Word) :
    commandWrite u w s = .next (overrun u s) := by
  rcases commandWrite_cases u w s with ⟨i, rfl, -, legal⟩ | ⟨cause, -, illegal⟩
  · rw [legal, exec_busy_host turn running]
  · rw [illegal, if_pos running]

/-- Settles O7: a busy unit overruns on every word, and the window write is the command write. -/
theorem busyCommandWriteOnlySetsOverrun : Obligations.BusyCommandWriteOnlySetsOverrun := by
  unfold Obligations.BusyCommandWriteOnlySetsOverrun
  refine fun w s turn => ⟨fun running => ?_, fun running => ?_⟩
  · rw [windowWrite_cmdReg (u := .vad) rfl w s]
    exact and_self_iff.2 (commandWrite_busy (u := .vad) turn running w)
  · rw [windowWrite_cmdReg (u := .mp3) rfl w s]
    exact and_self_iff.2 (commandWrite_busy (u := .mp3) turn running w)

/-! ### The host's own stores -/

/-- Settles O49: outside a running decode's outputs a store is one byte written, beside the bits left unclean. -/
theorem hostStoreChangesOneByte : Obligations.HostStoreChangesOneByte := by
  unfold Obligations.HostStoreChangesOneByte
  intro s addr b outside
  have bytes : ∀ x, readByte (hostStore addr b s).mem x = if x = addr.toNat then some b else readByte s.mem x := by
    obtain ⟨stale, store⟩ := hostStore_outside outside b
    rw [store]
    exact fun x => readByte_putByte addr.toNat x b s
  obtain ⟨vad, mp3, irqEnable, -⟩ := hostStore_rest addr b s
  exact ⟨(bytes _).trans (if_pos rfl), fun x other => (bytes x).trans (if_neg other), vad, mp3, irqEnable⟩

/-! ### What a step of a command reads of the block -/

/-- Where the first step has a next state, so has the second, and they agree on `part` of it. -/
def agreeAfter {α : Type} (part : State → α) (o1 o2 : Result) : Prop :=
  ∀ t1, o1 = .next t1 → ∃ t2, o2 = .next t2 ∧ part t1 = part t2

theorem agreeAfter_next {α : Type} {part : State → α} {t1 t2 : State} (same : part t1 = part t2) :
    agreeAfter part (.next t1) (.next t2) := by
  intro t next
  exact ⟨t2, rfl, next_inj.1 next ▸ same⟩

theorem agreeAfter_fault {α : Type} (part : State → α) (r : Fault) (o : Result) : agreeAfter part (.fault r) o :=
  fun _ next => nomatch next

section
variable {s1 s2 : State}

theorem issueVad_congr (same : s1.vad = s2.vad) (seq : VadSeq) (check : Option Cause) :
    (issueVad seq check s1).vad = (issueVad seq check s2).vad := by
  unfold issueVad
  rw [same]
  split
  · simp only [overrun, same]
  · cases check with
    | some cause => simp only [reject, same]
    | none => simp only [acceptVad, same]

theorem issueMp3_congr (same : s1.mp3 = s2.mp3) (seq : Mp3Seq) (check : Option Cause) :
    (issueMp3 seq check s1).mp3 = (issueMp3 seq check s2).mp3 := by
  unfold issueMp3
  rw [same]
  split
  · simp only [overrun, same]
  · cases check with
    | some cause => simp only [reject, same]
    | none => simp only [acceptMp3, same]

theorem vadGoto_congr (same : s1.vad = s2.vad) (seq : VadSeq) : (vadGoto seq s1).vad = (vadGoto seq s2).vad := by
  simp only [vadGoto, same]

theorem mp3Goto_congr (same : s1.mp3 = s2.mp3) (seq : Mp3Seq) : (mp3Goto seq s1).mp3 = (mp3Goto seq s2).mp3 := by
  simp only [mp3Goto, same]

theorem completeVad_congr (same : s1.vad = s2.vad) (c : VadCommit) :
    (completeVad c s1).vad = (completeVad c s2).vad := by
  simp only [completeVad, same]

theorem completeMp3_congr (same : s1.mp3 = s2.mp3) (c : Mp3Commit) :
    (completeMp3 c s1).mp3 = (completeMp3 c s2).mp3 := by
  simp only [completeMp3, same]

theorem runVadInit_congr (same : s1.vad = s2.vad) : (runVadInit s1).vad = (runVadInit s2).vad := by
  unfold runVadInit
  rw [same]
  split
  · exact vadGoto_congr (by simp only [pulseIvad, same]) _
  · exact completeVad_congr same _
  · exact same

theorem runVadSetmode_congr (same : s1.vad = s2.vad) : (runVadSetmode s1).vad = (runVadSetmode s2).vad := by
  unfold runVadSetmode
  rw [same]
  split
  · exact completeVad_congr same _
  · exact same

theorem iterate_congr (same : s1.vad = s2.vad) (w : ProcWork) :
    agreeAfter State.vad (iterate w s1) (iterate w s2) := by
  unfold iterate
  split_ifs
  · exact agreeAfter_next (vadGoto_congr (by simp only [postIvad, same]) _)
  · exact agreeAfter_next (completeVad_congr same _)
  · exact agreeAfter_next (vadGoto_congr (by simp only [postMem, same]) _)
  · exact agreeAfter_fault _ _ _

theorem takeSample_congr (same : s1.vad = s2.vad) (w : ProcWork) (word : Word) :
    agreeAfter State.vad (takeSample w word s1) (takeSample w word s2) := by
  unfold takeSample
  split_ifs
  · exact iterate_congr (by simp only [fillSample, same]) _
  · exact agreeAfter_fault _ _ _

theorem takeVerdict_congr (same : s1.vad = s2.vad) (w : ProcWork) (code : BitVec 2) :
    (takeVerdict w code s1).vad = (takeVerdict w code s2).vad :=
  vadGoto_congr (by simp only [same]) _

theorem runVadProcess_congr (same : s1.vad = s2.vad) :
    agreeAfter State.vad (runVadProcess s1) (runVadProcess s2) := by
  unfold runVadProcess
  rw [same]
  cases s2.vad.run with
  | none => exact agreeAfter_next same
  | some run =>
    dsimp only
    cases run.seq with
    | init | setmode => exact agreeAfter_next same
    | process pos =>
      cases pos with
      | start =>
        dsimp only
        cases rateCheck run.rateA s2.vad with
        | none => exact agreeAfter_next (completeVad_congr same _)
        | some session => exact iterate_congr same _
      | loop w => exact iterate_congr same w
      | memWait w =>
        dsimp only
        cases s2.vad.memPort with
        | answered word => exact takeSample_congr same w word
        | idle | pending => exact agreeAfter_next same
      | ivadWait w =>
        dsimp only
        cases s2.vad.ivadPort with
        | answered code => exact agreeAfter_next (takeVerdict_congr same w code)
        | idle | pending => exact agreeAfter_next same

theorem takeAnswer_congr (same : s1.mp3 = s2.mp3) (fmt : Fmt) (run : Mp3Run) (b : Boot) (n : Word) (hp : Bool) :
    (takeAnswer fmt run b n hp s1).mp3 = (takeAnswer fmt run b n hp s2).mp3 :=
  mp3Goto_congr (by simp only [same]) _

theorem runDecode_congr (same : s1.mp3 = s2.mp3) (fmt : Fmt) : (runDecode fmt s1).mp3 = (runDecode fmt s2).mp3 := by
  unfold runDecode
  rw [same]
  cases s2.mp3.run with
  | none => exact same
  | some run =>
    dsimp only
    cases run.seq with
    | reset => exact same
    | decode f pos =>
      dsimp only
      split
      · cases pos with
        | call b => exact mp3Goto_congr (by simp only [postIdec, same]) _
        | wait b =>
          dsimp only
          cases s2.mp3.idecPort with
          | answered a => exact takeAnswer_congr same fmt run b a.1 a.2
          | idle | pending => exact same
        | finish b n => exact completeMp3_congr same _
      · exact same

theorem runMp3Reset_congr (same : s1.mp3 = s2.mp3) : (runMp3Reset s1).mp3 = (runMp3Reset s2).mp3 := by
  unfold runMp3Reset
  rw [same]
  split
  · exact mp3Goto_congr (by simp only [pulseIdec, same]) _
  · exact completeMp3_congr same _
  · exact same

/-- At the turn of an agent other than the host and the VAD unit a VAD command takes no step (log 2). -/
theorem exec_vad_otherTurn {i : Instr} {s : State} (unit : i.unit = .vad) (host : s.env.turn ≠ .host)
    (own : s.env.turn ≠ .vadUnit) : exec i s = .next s := by
  cases turn : s.env.turn with
  | host => exact absurd turn host
  | vadUnit => exact absurd turn own
  | mp3Unit | innerVad | innerDecoder | hostMemory =>
    cases i with
    | vadInit | vadSetmode | vadProcess => simp only [exec, execVadInit, execVadSetmode, execVadProcess, turn]
    | mp3DecodeS16 | mp3DecodeF32 | mp3Reset => cases unit

/-- At the turn of an agent other than the host and the MP3 unit an MP3 command takes no step (log 2). -/
theorem exec_mp3_otherTurn {i : Instr} {s : State} (unit : i.unit = .mp3) (host : s.env.turn ≠ .host)
    (own : s.env.turn ≠ .mp3Unit) : exec i s = .next s := by
  cases turn : s.env.turn with
  | host => exact absurd turn host
  | mp3Unit => exact absurd turn own
  | vadUnit | innerVad | innerDecoder | hostMemory =>
    cases i with
    | mp3DecodeS16 | mp3DecodeF32 | mp3Reset =>
      simp only [exec, execMp3DecodeS16, execMp3DecodeF32, execMp3Reset, turn]
    | vadInit | vadSetmode | vadProcess => cases unit

/-- A VAD command's step reads of the block its unit alone, whoever has the turn (60_exceptions.md R141). -/
theorem exec_vad_congr {i : Instr} (unit : i.unit = .vad) (same : s1.vad = s2.vad) (turn : s1.env.turn = s2.env.turn) :
    agreeAfter State.vad (exec i s1) (exec i s2) := by
  by_cases host : s2.env.turn = .host
  · obtain ⟨seq, check, issue⟩ := exec_vad_host unit
    rw [issue s1 (turn.trans host), issue s2 host, same]
    exact agreeAfter_next (issueVad_congr same seq _)
  · by_cases own : s2.env.turn = .vadUnit
    · obtain ⟨init1, setmode1, process1⟩ := exec_vadUnit (turn.trans own)
      obtain ⟨init2, setmode2, process2⟩ := exec_vadUnit own
      cases i with
      | vadInit => rw [init1, init2]; exact agreeAfter_next (runVadInit_congr same)
      | vadSetmode => rw [setmode1, setmode2]; exact agreeAfter_next (runVadSetmode_congr same)
      | vadProcess => rw [process1, process2]; exact runVadProcess_congr same
      | mp3DecodeS16 | mp3DecodeF32 | mp3Reset => cases unit
    · rw [exec_vad_otherTurn unit (turn ▸ host) (turn ▸ own), exec_vad_otherTurn unit host own]
      exact agreeAfter_next same

/-- An MP3 command's step reads of the block its unit alone, whoever has the turn (60_exceptions.md R141). -/
theorem exec_mp3_congr {i : Instr} (unit : i.unit = .mp3) (same : s1.mp3 = s2.mp3) (turn : s1.env.turn = s2.env.turn) :
    agreeAfter State.mp3 (exec i s1) (exec i s2) := by
  by_cases host : s2.env.turn = .host
  · obtain ⟨seq, check, issue⟩ := exec_mp3_host unit
    rw [issue s1 (turn.trans host), issue s2 host, same]
    exact agreeAfter_next (issueMp3_congr same seq _)
  · by_cases own : s2.env.turn = .mp3Unit
    · obtain ⟨short1, float1, reset1⟩ := exec_mp3Unit (turn.trans own)
      obtain ⟨short2, float2, reset2⟩ := exec_mp3Unit own
      cases i with
      | mp3DecodeS16 => rw [short1, short2]; exact agreeAfter_next (runDecode_congr same .s16)
      | mp3DecodeF32 => rw [float1, float2]; exact agreeAfter_next (runDecode_congr same .f32)
      | mp3Reset => rw [reset1, reset2]; exact agreeAfter_next (runMp3Reset_congr same)
      | vadInit | vadSetmode | vadProcess => cases unit
    · rw [exec_mp3_otherTurn unit (turn ▸ host) (turn ▸ own), exec_mp3_otherTurn unit host own]
      exact agreeAfter_next same

end

/-- Settles O37: each unit's commands read of the block their own unit and the turn. -/
theorem unitsShareNothing : Obligations.UnitsShareNothing := by
  unfold Obligations.UnitsShareNothing
  exact ⟨fun _ _ _ unit same turn => exec_vad_congr unit same turn,
    fun _ _ _ unit same turn => exec_mp3_congr unit same turn⟩

/-! ### No step stops -/

/-- At the host's turn every command has a next state: it is its acceptance procedure. -/
theorem exec_host_goesOn {s : State} (turn : s.env.turn = .host) (i : Instr) : goesOn (exec i s) := by
  cases unit : i.unit with
  | vad => obtain ⟨seq, check, issue⟩ := exec_vad_host unit; exact ⟨_, issue s turn⟩
  | mp3 => obtain ⟨seq, check, issue⟩ := exec_mp3_host unit; exact ⟨_, issue s turn⟩

theorem commandWrite_goesOn {s : State} (turn : s.env.turn = .host) (u : UnitId) (w : Word) :
    goesOn (commandWrite u w s) := by
  rcases commandWrite_cases u w s with ⟨i, -, -, legal⟩ | ⟨cause, -, illegal⟩
  · exact legal ▸ exec_host_goesOn turn i
  · exact ⟨_, illegal⟩

theorem windowWrite_goesOn {s : State} (turn : s.env.turn = .host) (offset : BitVec 13) (width : Width) (w : Word) :
    goesOn (windowWrite offset width w s) := by
  have register : ∀ r, goesOn (regWrite r w s) := by
    intro r
    cases r with
    | vadCmd => exact commandWrite_goesOn turn .vad w
    | mp3Cmd => exact commandWrite_goesOn turn .mp3 w
    | _ => exact ⟨_, rfl⟩
  unfold windowWrite
  split
  · split
    · exact register _
    · exact ⟨_, rfl⟩
  · exact ⟨_, rfl⟩

theorem hostMove_goesOn {s : State} (turn : s.env.turn = .host) : goesOn (hostMove s) := by
  have popped : (popHostOp s).env.turn = .host := turn
  unfold hostMove
  split
  · exact ⟨_, rfl⟩
  · next op _ _ =>
    cases op with
    | write offset width value => exact windowWrite_goesOn popped offset width value
    | busWrite addr bytes =>
      simp only [hostOp]
      split
      · exact windowWrite_goesOn popped _ _ _
      · exact ⟨_, rfl⟩
    | busRead addr width =>
      simp only [hostOp]
      split
      · exact ⟨_, rfl⟩
      · exact ⟨_, rfl⟩
    | read | poll | pollAny | store | clean | assertRst => exact ⟨_, rfl⟩

/-- The VAD unit's step stops nowhere: it is idle, waits, or comes nearer to its command's end, which needs the pointer
in R50's domain and the index inside RB (20_memory.md R47, 41_vad_frame_assembler.md R101). -/
theorem vadMove_goesOn {s : State} (ok : VadOk s.vad) (turn : s.env.turn = .vadUnit) : goesOn (vadMove s) := by
  by_cases waits : vadWaits s.vad
  · exact ⟨s, vadMove_waiting ok turn waits⟩
  · cases running : s.vad.run with
    | none => exact ⟨s, by simp only [vadMove, running]⟩
    | some run =>
      obtain ⟨t, next, -⟩ := vadMove_nearer ok turn (Option.isSome_iff_exists.2 ⟨run, running⟩) waits
      exact ⟨t, next⟩

theorem mp3Move_goesOn {s : State} (turn : s.env.turn = .mp3Unit) : goesOn (mp3Move s) := by
  cases running : s.mp3.run with
  | none => exact ⟨s, by simp only [mp3Move, running]⟩
  | some run =>
    cases seq : run.seq with
    | reset pulsed => exact ⟨_, mp3Move_reset turn running seq⟩
    | decode fmt pos => exact ⟨_, mp3Move_decode turn running seq⟩

/-- Settles O55: a step is one agent's move, and the two that could stop, the host's and the VAD unit's, do not. -/
theorem noStepStops : Obligations.NoStepStops := by
  unfold Obligations.NoStepStops
  intro s inv
  have ok : VadOk (takeTurn s).vad := (takeTurn_inv inv).vad
  change goesOn (agentMove (takeTurn s))
  unfold agentMove
  split
  · next turn => exact hostMove_goesOn turn
  · next turn => exact vadMove_goesOn ok turn
  · next turn => exact mp3Move_goesOn turn
  · exact ⟨_, rfl⟩
  · exact ⟨_, rfl⟩
  · exact ⟨_, rfl⟩

end Sys2Proof.Machine
end

section
/-! The reset input (70_reset_and_hazards.md R145, R147): what the reset procedure leaves in the registers and in host
memory. -/

namespace Sys2Proof.Machine

/-- At the host's turn the reset input is the reset procedure (70_reset_and_hazards.md R144). -/
theorem agentMove_assertRst {s : State} {ops : List HostOp} (next : s.env.hostOps = .assertRst :: ops)
    (turn : s.env.turn = .host) : agentMove s = .next (hardReset (popHostOp s)) := by
  simp only [agentMove, turn, hostMove, next, hostOp]

/-- After the reset procedure each register but RB_WIN reads as in the reset state: it shows a unit's reset value or
IRQ_ENABLE (10_state.md R45). -/
theorem regValue_hardReset {r : Reg} (notRing : ∀ k, r ≠ .rbWin k) (s : State) :
    regValue r (hardReset s) = regValue r State.reset := by
  cases r with
  | rbWin k => exact absurd rfl (notRing k)
  | vadCmd | vadStatus | vadArg0 | vadArg1 | vadArg2 | vadResult | vadRate | vadFlen | vadOff | vadMode
  | vadHistErr | vadHistSil | vadHistVoi | vadHistNoi | mp3Cmd | mp3Status | mp3Arg0 | mp3Arg1 | mp3Arg2 | mp3Arg3
  | mp3N | mp3Samples | mp3Trace | irqEnable | irqStatus => rfl

/-- What an abandoned command leaves behind stays inside the output regions of a running decode
(70_reset_and_hazards.md R147). -/
theorem readByte_abandonOutputs {s : State} {a : Nat} (outside : inRunningOutput s.mp3 a = false) :
    readByte (abandonOutputs s).mem a = readByte s.mem a := by
  unfold inRunningOutput at outside
  unfold abandonOutputs
  cases running : s.mp3.run with
  | none => rfl
  | some run =>
    cases seq : run.seq with
    | reset pulsed => simp only [seq]
    | decode fmt pos =>
      simp only [running, seq, Bool.or_eq_false_iff] at outside ⊢
      obtain ⟨left, right⟩ := outside
      exact readByte_writeOutputs left right _ (drawn s)

/-- Settles O51: the host's step is the reset procedure, whose units and IRQ_ENABLE are those of the reset state, and
whose memory is what the abandoned decode leaves. -/
theorem hardwareResetAbandonsEverything : Obligations.HardwareResetAbandonsEverything := by
  unfold Obligations.HardwareResetAbandonsEverything
  intro s ops next turn
  obtain ⟨readsZero, irqLow, -⟩ := resetStateReadsZero
  refine ⟨hardReset (popHostOp s), agentMove_assertRst next turn, ?registers, irqLow, rfl, rfl, rfl, rfl, rfl, rfl, rfl,
    ?memory⟩
  case registers =>
    intro r wf notRing
    exact (regValue_hardReset notRing _).trans (readsZero r wf notRing)
  case memory =>
    intro a outside
    exact readByte_abandonOutputs (s := popHostOp s) outside

end Sys2Proof.Machine
end
